-- ==== Sys2Proof/Word.lean ====
section
/-! DEFINITION. The plain types every other file uses: bytes and words, the names the spec gives to queues, kinds,
agents and refusals, the 8-byte Intron, and the two shapes an encoded instruction has. -/

namespace Sys2Proof

/-- A byte of the serial line (00_scope.md R8). -/
abbrev Byte := BitVec 8

/-- The 64-bit command word `w[63:0]` (30_encoding.md R118). -/
abbrev CmdWord := BitVec 64

/-- The 32-bit header word `Kind << 24 | VariableByte << 16 | PayloadSize` (30_encoding.md R127). -/
abbrev HdrWord := BitVec 32

/-- The two queues of the bridge (00_scope.md R7, 45_queue_bridge.md R290): Radio->Serial and Serial->Radio. -/
inductive QId where
  | r2s
  | s2r
  deriving DecidableEq, Repr

/-- The seven message kinds (00_scope.md R2, 30_encoding.md R114). -/
inductive Kind where
  | deviceInfoV2
  | clientConfigV2
  | packetV2
  | scanStart
  | scanStop
  | scanApCnt
  | scanApGet
  deriving DecidableEq, Repr

/-- The agents that take steps (00_scope.md R6, 60_exceptions.md R351). -/
inductive Agent where
  | serial
  | radio
  | system
  deriving DecidableEq, Repr

/-- The seven commands, as OPC selects them (30_encoding.md R119). -/
inductive Opc where
  | rxByte
  | dfrReset
  | txMsg
  | enq
  | deq
  | rdState
  | hwReset
  deriving DecidableEq, Repr

/-- The synchronisation marker, a sequence of 8 bytes and not an integer (20_memory.md R84, 10_state.md R32):
`b0` is INTRON[0], the first on the wire. -/
structure Intron where
  b0 : Byte
  b1 : Byte
  b2 : Byte
  b3 : Byte
  b4 : Byte
  b5 : Byte
  b6 : Byte
  b7 : Byte
  deriving DecidableEq, Repr

/-- The refusal codes of 60_exceptions.md R344. -/
inductive RefuseCode where
  /-- OPC is not one of 30_encoding.md R119. -/
  | reservedOpcode
  /-- A must-be-zero bit of 30_encoding.md R119 is set. -/
  | reservedBits
  /-- The issuing agent is not the command's domain (30_encoding.md R124). -/
  | wrongDomain
  /-- TX_MSG with len(P) different from SIZE (30_encoding.md R120). -/
  | payloadLengthMismatch
  deriving DecidableEq, Repr

/-- An encoded instruction: a command word with its sideband bytes (30_encoding.md R118, R120), or a wire header
word with the tunnel consumer's answer that arrives with it (30_encoding.md R121, R127). -/
inductive Words where
  | command (w : CmdWord) (sideband : List Byte)
  | header (w : HdrWord) (rdy : Bool)
  deriving DecidableEq, Repr

/-- Why a decoder rejects: a command word by its refusal code (60_exceptions.md R344), a header word as an invalid
header with the operands the INVALID_HEADER event carries (43_deframer.md R224). -/
inductive Reject where
  | refused (c : RefuseCode)
  | invalidHeader (kind var : Byte) (size : BitVec 16)
  deriving DecidableEq, Repr

end Sys2Proof
end

