-- ==== Sys2Proof/Config.lean ====
section
/-! DEFINITION. The block's parameters (00_scope.md R7). The OPEN ones are plain data that State carries unchanged, so
a claim about every state is a claim about every choice of them (DESIGN CHOICE, log 1; safe). -/

namespace Sys2Proof

/-- KIND_CODE: the byte of each kind (30_encoding.md R114). -/
structure KindCodes where
  deviceInfoV2 : Byte
  clientConfigV2 : Byte
  packetV2 : Byte
  scanStart : Byte
  scanStop : Byte
  scanApCnt : Byte
  scanApGet : Byte
  deriving DecidableEq, Repr

/-- CRC32, the parameter of 41_crc32.md R180: the default algorithm, or any other total function of
(accumulator, byte), named by a number and left uninterpreted (DESIGN CHOICE, log 3; safe). -/
inductive CrcAlgorithm where
  | isoHdlc
  | other (id : Nat)
  deriving DecidableEq, Repr

/-- The OPEN parameters of 00_scope.md R7. -/
structure Config where
  /-- QCAP, entries per queue. -/
  qcap : Nat
  /-- DEFAULT_INTRON. -/
  defaultIntron : Intron
  /-- KIND_CODE. -/
  kindCode : KindCodes
  /-- CRC32. -/
  crc : CrcAlgorithm
  /-- PASS_CAP. -/
  passCap : Nat
  deriving DecidableEq, Repr

/-- The byte KIND_CODE(k) (30_encoding.md R114). -/
def KindCodes.code (c : KindCodes) : Kind → Byte
  | .deviceInfoV2 => c.deviceInfoV2
  | .clientConfigV2 => c.clientConfigV2
  | .packetV2 => c.packetV2
  | .scanStart => c.scanStart
  | .scanStop => c.scanStop
  | .scanApCnt => c.scanApCnt
  | .scanApGet => c.scanApGet

/-- The seven bytes of KIND_CODE, in the order of 30_encoding.md R114's table. -/
def KindCodes.toList (c : KindCodes) : List Byte :=
  [c.deviceInfoV2, c.clientConfigV2, c.packetV2, c.scanStart, c.scanStop, c.scanApCnt, c.scanApGet]

/-- What 00_scope.md R7 and decision D36 require of the parameters: seven distinct kind codes and 1 <= QCAP <= 255. -/
def Config.wf (c : Config) : Bool :=
  decide c.kindCode.toList.Nodup && decide (1 ≤ c.qcap) && decide (c.qcap ≤ 255)

/-- A CRC-32 fold other than the default: a total function of the accumulator and a byte, of which nothing is
known (41_crc32.md R180: "assumes of it only that it is a total function of (acc, b)"; log 3). -/
opaque Config.crcOther : Nat → BitVec 32 → Byte → BitVec 32

/-- SCRATCH_SIZE (00_scope.md R7, fixed). -/
def Config.scratchSize : Nat := 64

/-- SSID_CAP (00_scope.md R7, decided). -/
def Config.ssidCap : Nat := 32

/-- PRELUDE_LEN = INTRON_LEN + HDR_LEN + CRC_LEN (00_scope.md R7, fixed). -/
def Config.preludeLen : Nat := 8 + 4 + 4

/-- The default of every OPEN parameter (00_scope.md R7). The source fixes none of them; the kind codes and the CRC
are the spec's general knowledge (PRESUMED, log 2; unsafe for a block built with others). -/
def Config.default : Config where
  qcap := 20
  defaultIntron := ⟨0x55, 0x4E, 0x00, 0x01, 0x02, 0x03, 0x04, 0x05⟩
  kindCode :=
    { deviceInfoV2 := 0x00, clientConfigV2 := 0x06, packetV2 := 0x07, scanStart := 0x08
      scanStop := 0x09, scanApCnt := 0x0A, scanApGet := 0x0B }
  crc := .isoHdlc
  passCap := 64

end Sys2Proof
end

