-- ==== Sys2Proof/Syntax.lean ====
section
/-! DEFINITION. The instructions: one constructor per row of spec/opcode_table.json. -/

namespace Sys2Proof

/-- The seven commands of the command port (30_encoding.md R119) and the eight wire-kind rows (30_encoding.md R127).
A wire row is the opcode the deframer runs when a header completes (43_deframer.md R223); its operands are the header
fields its row leaves free, and for PACKET_V2 the tunnel consumer's answer (30_encoding.md R121; log 7). -/
inductive Instr where
  /-- RX_BYTE (43_deframer.md R220). -/
  | rxByte (b : Byte) (rdy : Bool)
  /-- DFR_RESET (43_deframer.md R235). -/
  | dfrReset
  /-- TX_MSG with its sideband payload (42_framer.md R201). -/
  | txMsg (kind var : Byte) (size : BitVec 16) (payload : List Byte)
  /-- ENQ (45_queue_bridge.md R292). -/
  | enq (q : QId) (len : BitVec 16) (handle : BitVec 32)
  /-- DEQ (45_queue_bridge.md R294). -/
  | deq (q : QId)
  /-- RD_STATE (46_control.md R321). -/
  | rdState
  /-- HW_RESET (46_control.md R322). -/
  | hwReset
  /-- DEVICE_INFO_V2, PayloadSize 6 (40_vocabulary.md R153). -/
  | deviceInfoV2 (var : Byte)
  /-- CLIENTCONFIG_V2 (40_vocabulary.md R154). -/
  | clientConfigV2 (var : Byte) (size : BitVec 16)
  /-- PACKET_V2 (40_vocabulary.md R156). -/
  | packetV2 (var : Byte) (size : BitVec 16) (rdy : Bool)
  /-- SCAN_START, PayloadSize 0 (40_vocabulary.md R157). -/
  | scanStart (var : Byte)
  /-- SCAN_STOP, PayloadSize 0 (40_vocabulary.md R158). -/
  | scanStop (var : Byte)
  /-- SCAN_AP_CNT, PayloadSize 0 (40_vocabulary.md R159). -/
  | scanApCnt (var : Byte)
  /-- SCAN_AP_GET request, PayloadSize 0 (40_vocabulary.md R160). -/
  | scanApGetReq (var : Byte)
  /-- SCAN_AP_GET response, PayloadSize 33 (40_vocabulary.md R161). -/
  | scanApGetRsp (var : Byte)
  deriving DecidableEq, Repr

end Sys2Proof
end

