-- ==== Sys2Proof/WellFormed.lean ====
section
/-! DEFINITION. Which instructions have an encoding: the two side conditions the encoding tables put on operands. -/

namespace Sys2Proof

/-- TX_MSG carries exactly SIZE sideband bytes (30_encoding.md R120); a CLIENTCONFIG_V2 header has a PayloadSize of
10 to 64 (40_vocabulary.md R150); every other operand may have any value of its width. -/
def Instr.wf : Instr → Bool
  | .txMsg _ _ size payload => decide (payload.length = size.toNat)
  | .clientConfigV2 _ size => decide (10 ≤ size.toNat) && decide (size.toNat ≤ 64)
  | .rxByte _ _ => true
  | .dfrReset => true
  | .enq _ _ _ => true
  | .deq _ => true
  | .rdState => true
  | .hwReset => true
  | .deviceInfoV2 _ => true
  | .packetV2 _ _ _ => true
  | .scanStart _ => true
  | .scanStop _ => true
  | .scanApCnt _ => true
  | .scanApGetReq _ => true
  | .scanApGetRsp _ => true

end Sys2Proof
end

