-- ==== Sys2Proof/Decode.lean ====
section
/-! DEFINITION. The decoder, total on every command word and every header word, rejecting by name; then the encoder,
written from the same tables (30_encoding.md R119, R127); then the host's `decodeTableWord`. -/

namespace Sys2Proof

/-! ### Command words -/

/-- `OPC = w[63:56]` (30_encoding.md R119). -/
def opcField (w : CmdWord) : Byte := w.extractLsb' 56 8

/-- The command OPC selects; 0x00 and 0x08..0xFF select none (30_encoding.md R122). -/
def opcOf (w : CmdWord) : Option Opc :=
  if opcField w = 0x01 then some .rxByte
  else if opcField w = 0x02 then some .dfrReset
  else if opcField w = 0x03 then some .txMsg
  else if opcField w = 0x04 then some .enq
  else if opcField w = 0x05 then some .deq
  else if opcField w = 0x06 then some .rdState
  else if opcField w = 0x07 then some .hwReset
  else none

/-- `Q = w[48]`: 0 selects R2S, 1 selects S2R (30_encoding.md R119). -/
def qField (w : CmdWord) : QId := if w.extractLsb' 48 1 = 1 then .s2r else .r2s

/-- `SIZE = w[15:0]` of TX_MSG (30_encoding.md R119). -/
def sizeField (w : CmdWord) : BitVec 16 := w.extractLsb' 0 16

/-- The must-be-zero bits of each command are zero (30_encoding.md R119, last column). -/
def mustBeZeroClear (w : CmdWord) : Opc → Bool
  | .rxByte => decide (w.extractLsb' 9 47 = 0)
  | .dfrReset => decide (w.extractLsb' 0 56 = 0)
  | .txMsg => decide (w.extractLsb' 48 8 = 0) && decide (w.extractLsb' 16 16 = 0)
  | .enq => decide (w.extractLsb' 49 7 = 0)
  | .deq => decide (w.extractLsb' 49 7 = 0) && decide (w.extractLsb' 0 48 = 0)
  | .rdState => decide (w.extractLsb' 0 56 = 0)
  | .hwReset => decide (w.extractLsb' 0 56 = 0)

/-- The operand fields of each command (30_encoding.md R119); TX_MSG is admitted only with SIZE sideband bytes
(30_encoding.md R120). The sideband belongs to TX_MSG alone; no other command reads it (DEDUCED, log 11). -/
def operands (w : CmdWord) (p : List Byte) : Opc → Except RefuseCode Instr
  | .rxByte => .ok (.rxByte (w.extractLsb' 0 8) (decide (w.extractLsb' 8 1 = 1)))
  | .dfrReset => .ok .dfrReset
  | .txMsg =>
    if p.length = (sizeField w).toNat then
      .ok (.txMsg (w.extractLsb' 40 8) (w.extractLsb' 32 8) (sizeField w) p)
    else .error .payloadLengthMismatch
  | .enq => .ok (.enq (qField w) (w.extractLsb' 32 16) (w.extractLsb' 0 32))
  | .deq => .ok (.deq (qField w))
  | .rdState => .ok .rdState
  | .hwReset => .ok .hwReset

/-- A command word and its sideband: the opcode, then the must-be-zero bits, then the sideband's length, in the order
of 60_exceptions.md R344 (the issuing agent is checked between the first two, at the port). -/
def decodeCommand (w : CmdWord) (p : List Byte) : Except RefuseCode Instr :=
  match opcOf w with
  | none => .error .reservedOpcode
  | some o => if mustBeZeroClear w o then operands w p o else .error .reservedBits

/-- May agent `a` issue the command `o` with word `w` (30_encoding.md R124)? The queue of ENQ and DEQ is read from
w[48] even when other bits are wrong (30_encoding.md R122). -/
def mayIssue (a : Agent) (w : CmdWord) : Opc → Bool
  | .rxByte => decide (a = .serial)
  | .dfrReset => decide (a = .serial)
  | .txMsg => decide (a = .serial)
  | .enq => match qField w with
    | .r2s => decide (a = .radio)
    | .s2r => decide (a = .serial)
  | .deq => match qField w with
    | .r2s => decide (a = .serial)
    | .s2r => decide (a = .radio)
  | .rdState => true
  | .hwReset => decide (a = .system)

/-! ### Header words -/

/-- The Kind field of a header word (30_encoding.md R127). -/
def hdrKindField (w : HdrWord) : Byte := w.extractLsb' 24 8

/-- The VariableByte field of a header word (30_encoding.md R127). -/
def hdrVarField (w : HdrWord) : Byte := w.extractLsb' 16 8

/-- The PayloadSize field of a header word (30_encoding.md R127). -/
def hdrSizeField (w : HdrWord) : BitVec 16 := w.extractLsb' 0 16

/-- A header word by the rows of the wire opcode map (30_encoding.md R127, 40_vocabulary.md R153 to R161). -/
def decodeHeader (cfg : Config) (w : HdrWord) (rdy : Bool) : Except Reject Instr :=
  let k := hdrKindField w
  let v := hdrVarField w
  let n := hdrSizeField w
  let bad := Except.error (.invalidHeader k v n)
  if k = cfg.kindCode.deviceInfoV2 then if n = 6 then .ok (.deviceInfoV2 v) else bad
  else if k = cfg.kindCode.clientConfigV2 then
    if 10 ≤ n.toNat ∧ n.toNat ≤ 64 then .ok (.clientConfigV2 v n) else bad
  else if k = cfg.kindCode.packetV2 then .ok (.packetV2 v n rdy)
  else if k = cfg.kindCode.scanStart then if n = 0 then .ok (.scanStart v) else bad
  else if k = cfg.kindCode.scanStop then if n = 0 then .ok (.scanStop v) else bad
  else if k = cfg.kindCode.scanApCnt then if n = 0 then .ok (.scanApCnt v) else bad
  else if k = cfg.kindCode.scanApGet then
    if n = 0 then .ok (.scanApGetReq v) else if n = 33 then .ok (.scanApGetRsp v) else bad
  else bad

/-- The decoder of both encodings. -/
def decode (cfg : Config) : Words → Except Reject Instr
  | .command w p =>
    match decodeCommand w p with
    | .ok i => .ok i
    | .error c => .error (.refused c)
  | .header w rdy => decodeHeader cfg w rdy

/-! ### The encoder -/

/-- A field of `n` bits placed with its bit 0 at bit `lo` of a word, every other bit 0. -/
def fieldAt {n : Nat} (x : BitVec n) (lo : Nat) : CmdWord := x.setWidth 64 <<< lo

/-- One bit from a flag operand. -/
def bit (b : Bool) : BitVec 1 := if b then 1 else 0

/-- The Q bit: R2S is 0, S2R is 1 (30_encoding.md R119). -/
def qBit : QId → BitVec 1
  | .r2s => 0
  | .s2r => 1

/-- The header word of a kind, a VariableByte and a PayloadSize (30_encoding.md R127). -/
def headerWord (kind var : Byte) (size : BitVec 16) : HdrWord :=
  kind.setWidth 32 <<< 24 ||| var.setWidth 32 <<< 16 ||| size.setWidth 32

/-- The words of an instruction: the fields of 30_encoding.md R119 at their bits, every must-be-zero bit 0; a wire row
by its header word (30_encoding.md R127). -/
def encode (cfg : Config) : Instr → Words
  | .rxByte b rdy => .command (fieldAt (0x01 : Byte) 56 ||| fieldAt (bit rdy) 8 ||| fieldAt b 0) []
  | .dfrReset => .command (fieldAt (0x02 : Byte) 56) []
  | .txMsg kind var size p =>
    .command (fieldAt (0x03 : Byte) 56 ||| fieldAt kind 40 ||| fieldAt var 32 ||| fieldAt size 0) p
  | .enq q len h =>
    .command (fieldAt (0x04 : Byte) 56 ||| fieldAt (qBit q) 48 ||| fieldAt len 32 ||| fieldAt h 0) []
  | .deq q => .command (fieldAt (0x05 : Byte) 56 ||| fieldAt (qBit q) 48) []
  | .rdState => .command (fieldAt (0x06 : Byte) 56) []
  | .hwReset => .command (fieldAt (0x07 : Byte) 56) []
  | .deviceInfoV2 v => .header (headerWord cfg.kindCode.deviceInfoV2 v 6) false
  | .clientConfigV2 v n => .header (headerWord cfg.kindCode.clientConfigV2 v n) false
  | .packetV2 v n rdy => .header (headerWord cfg.kindCode.packetV2 v n) rdy
  | .scanStart v => .header (headerWord cfg.kindCode.scanStart v 0) false
  | .scanStop v => .header (headerWord cfg.kindCode.scanStop v 0) false
  | .scanApCnt v => .header (headerWord cfg.kindCode.scanApCnt v 0) false
  | .scanApGetReq v => .header (headerWord cfg.kindCode.scanApGet v 0) false
  | .scanApGetRsp v => .header (headerWord cfg.kindCode.scanApGet v 33) false

/-! ### The words the opcode table numbers -/

/-- The encoded form of a table word of `nbits` bits: a header word up to 32 bits, a command word up to 64 with its
SIZE sideband bytes zero when it is a TX_MSG; every bit above `nbits` is 0 (log 12). -/
def tableWords (nbits w : Nat) : Option Words :=
  if nbits ≤ 32 then some (.header (BitVec.ofNat 32 w) false)
  else if nbits ≤ 64 then
    let c := BitVec.ofNat 64 w
    some (.command c (if opcOf c = some .txMsg then List.replicate (sizeField c).toNat 0 else []))
  else none

/-- The instruction the decoder reads from a table word, with the default parameters the table is written for. -/
def decodeTableWord (nbits w : Nat) : Option Instr :=
  match tableWords nbits w with
  | none => none
  | some ws =>
    match decode Config.default ws with
    | .ok i => some i
    | .error _ => none

end Sys2Proof
end

