-- ==== Sys2Proof/Machine/State.lean ====
section
/-! DEFINITION. The state of the block as plain data (10_state.md R30), with the agents' ports, turns and holds the
spec's agents imply; the events, fault codes and outcome reasons; and the state after reset (10_state.md R48). -/

namespace Sys2Proof.Machine

/-- DSTATE (10_state.md R31). -/
inductive DState where
  /-- AwaitingIntron, 0. -/
  | ai
  /-- AwaitingHeader, 1. -/
  | ah
  /-- ReceivingPayload, 2. -/
  | rp
  /-- DiscardingPayload, 3. -/
  | dp
  deriving DecidableEq, Repr

/-- LAST_RESULT (10_state.md R43); codes 6 and 7 are never written. -/
inductive LastResult where
  | none
  | ok
  | crcBad
  | badHeader
  | discardOk
  | discardBad
  deriving DecidableEq, Repr

/-- A queue entry (45_queue_bridge.md R291). -/
structure Entry where
  len : BitVec 16
  handle : BitVec 32
  deriving DecidableEq, Repr

/-- Which side changed the Intron (60_exceptions.md R342, INTRON_SET). -/
inductive Side where
  | rx
  | tx
  deriving DecidableEq, Repr

/-- The events of 60_exceptions.md R342. -/
inductive Event where
  | dispatch (kind var : Byte) (payload : List Byte) (valid : Bool)
  | invalidHeader (kind var : Byte) (size : BitVec 16)
  | tunBegin (var : Byte) (size : BitVec 16) (answer : Bool)
  | tunUpdate (b : Byte)
  | tunCommit (valid : Bool)
  | tunAbandon
  | intronSet (intron : Intron) (side : Side)
  | txBytes (bytes : List Byte)
  | txReject (kind var : Byte) (size : BitVec 16)
  | qEnq (q : QId) (len : BitVec 16) (handle : BitVec 32)
  | qDrop (q : QId) (len : BitVec 16) (handle : BitVec 32)
  | qDeq (q : QId) (len : BitVec 16) (handle : BitVec 32)
  | qFree (q : QId) (len : BitVec 16) (handle : BitVec 32)
  | state (stat0 stat1 stat2 stat3 stat4 : BitVec 64)
  deriving DecidableEq, Repr

/-- The fault codes of 60_exceptions.md R343, with the operands the faults carry (log 10). They are recorded in the
state's FAULT set and stop nothing (log 8). -/
inductive FaultCode where
  /-- Code 1, raised by ENQ (45_queue_bridge.md R297). -/
  | handleReuse (q : QId) (handle : BitVec 32)
  /-- Code 2, raised by BeginStream (44_tunnel.md R275); unreachable. -/
  | streamOverlap
  /-- Code 3, raised by ScratchByte (20_memory.md R82); unreachable. -/
  | scratchOverflow (index : Nat)
  deriving DecidableEq, Repr

/-- A command at an agent's port: its word and, for TX_MSG, the sideband bytes (30_encoding.md R118, R120). -/
structure Command where
  word : CmdWord
  sideband : List Byte
  deriving DecidableEq, Repr

/-- SCRATCH as a list of (index, byte) cells in one canonical form: indices strictly rising, no cell equal to what an
unlisted index reads as. -/
abbrev Memory := List Host.Cell

/-- The state of the block. -/
structure State where
  /-- The block's parameters (00_scope.md R7); no command writes them (log 1). -/
  cfg : Config
  /-- DSTATE (10_state.md R31). -/
  dstate : DState
  /-- INTRON (10_state.md R32). -/
  intron : Intron
  /-- WIN (10_state.md R33). -/
  win : BitVec 64
  /-- WFILL (10_state.md R33). -/
  wfill : BitVec 4
  /-- CRC_ACC (10_state.md R34). -/
  crcAcc : BitVec 32
  /-- HDR_CNT (10_state.md R35). -/
  hdrCnt : BitVec 4
  /-- HDR_KIND (10_state.md R36). -/
  hdrKind : Byte
  /-- HDR_VAR (10_state.md R36). -/
  hdrVar : Byte
  /-- HDR_SIZE (10_state.md R37). -/
  hdrSize : BitVec 16
  /-- CRC_RX (10_state.md R38). -/
  crcRx : BitVec 32
  /-- PAY_CNT (10_state.md R39). -/
  payCnt : BitVec 16
  /-- STREAMED (10_state.md R40). -/
  streamed : Bool
  /-- STREAM_OPEN (10_state.md R41). -/
  streamOpen : Bool
  /-- SCRATCH (10_state.md R42). -/
  scratch : Memory
  /-- LAST_RESULT (10_state.md R43). -/
  lastResult : LastResult
  /-- Q[R2S], front first (10_state.md R45). -/
  r2s : List Entry
  /-- Q[S2R], front first (10_state.md R45). -/
  s2r : List Entry
  /-- FAULT, the sticky set (10_state.md R46), without repeats. -/
  fault : List FaultCode
  /-- REFUSED, the sticky set (10_state.md R46), without repeats. -/
  refused : List RefuseCode
  /-- H, the event history, oldest first (10_state.md R46). -/
  history : List Event
  /-- A DEQ of the serial domain waits, issued when R2S was empty and not completed; the domain is held in DEQ_EMPTY(R2S)
  while R2S is empty (60_exceptions.md R345; log 6). -/
  heldSerial : Bool
  /-- The same for the radio domain and S2R. -/
  heldRadio : Bool
  /-- Commands the serial domain has issued and the block has not taken, oldest first (log 5). -/
  serialPort : List Command
  /-- The same for the radio domain. -/
  radioPort : List Command
  /-- The same for the system agent. -/
  systemPort : List Command
  /-- Which agent moves at each coming step: the interleaving of 20_memory.md R91 (log 5). -/
  turns : List Agent
  deriving DecidableEq, Repr

/-- Why the machine would stop with a fault. It has NO constructor: nothing in the block stops it
(60_exceptions.md R340), and a fault of R343 is recorded in the state while the block goes on (log 8). -/
inductive Fault where
  deriving DecidableEq, Repr

/-- Why a step would have no meaning. -/
inductive Refusal where
  /-- An instruction without a meaning, by its mnemonic; raised by an arm of exec that has none yet. Safe. Every
  instruction has its meaning, so nothing raises it. -/
  | notModelled (mnemonic : String)
  deriving DecidableEq, Repr

/-- Right after hardware reset at power-on (70_reset_and_hazards.md R381, 10_state.md R48), with the default parameters
(log 2), SCRATCH with nothing listed (log 4), and nothing issued, scheduled or held (log 5, log 6). -/
def State.reset : State where
  cfg := Config.default
  dstate := .ai
  intron := Config.default.defaultIntron
  win := 0
  wfill := 0
  crcAcc := 0
  hdrCnt := 0
  hdrKind := 0
  hdrVar := 0
  hdrSize := 0
  crcRx := 0
  payCnt := 0
  streamed := false
  streamOpen := false
  scratch := []
  lastResult := .none
  r2s := []
  s2r := []
  fault := []
  refused := []
  history := []
  heldSerial := false
  heldRadio := false
  serialPort := []
  radioPort := []
  systemPort := []
  turns := []

end Sys2Proof.Machine
end

