-- ==== Sys2Proof/Machine/Operands.lean ====
section
/-! DEFINITION. Byte order, the CRC-32 function, the acceptance predicate and the frame: the pure functions the rules
name (00_scope.md R8, 41_crc32.md, 40_vocabulary.md R150, R151, 42_framer.md R200). -/

namespace Sys2Proof.Machine

/-! ### Byte order -/

/-- `be16(v)` (00_scope.md R8). -/
def be16 (v : BitVec 16) : List Byte := [v.extractLsb' 8 8, v.extractLsb' 0 8]

/-- `be32(v)` (00_scope.md R8). -/
def be32 (v : BitVec 32) : List Byte :=
  [v.extractLsb' 24 8, v.extractLsb' 16 8, v.extractLsb' 8 8, v.extractLsb' 0 8]

/-- `be64(s)` of the Intron: INTRON[0] in bits 63:56 and INTRON[7] in bits 7:0 (00_scope.md R8). -/
def be64 (i : Intron) : BitVec 64 :=
  fieldAt i.b0 56 ||| fieldAt i.b1 48 ||| fieldAt i.b2 40 ||| fieldAt i.b3 32 ||| fieldAt i.b4 24 ||| fieldAt i.b5 16 |||
    fieldAt i.b6 8 ||| fieldAt i.b7 0

/-- INTRON[0..7] as a byte sequence (10_state.md R32). -/
def intronBytes (i : Intron) : List Byte := [i.b0, i.b1, i.b2, i.b3, i.b4, i.b5, i.b6, i.b7]

/-- The Intron in the first 8 bytes `p[0..7]` of a payload (40_vocabulary.md R154); an accepted CLIENTCONFIG_V2 has at
least 10. A byte a shorter sequence lacks is taken as 0 (DESIGN CHOICE, log 18; unreachable). -/
def intronOf (p : List Byte) : Intron :=
  ⟨p.getD 0 0, p.getD 1 0, p.getD 2 0, p.getD 3 0, p.getD 4 0, p.getD 5 0, p.getD 6 0, p.getD 7 0⟩

/-! ### CRC-32 -/

/-- One of the eight shifts of `crc_fold` (41_crc32.md R180). -/
def crcShift (r : BitVec 32) : BitVec 32 :=
  if r.getLsbD 0 then (r >>> 1) ^^^ 0xEDB88320#32 else r >>> 1

/-- `crc_fold` of CRC-32/ISO-HDLC on a finalized value (41_crc32.md R180). -/
def crcFoldIsoHdlc (acc : BitVec 32) (b : Byte) : BitVec 32 :=
  let r := (acc ^^^ 0xFFFFFFFF#32) ^^^ b.setWidth 32
  crcShift (crcShift (crcShift (crcShift (crcShift (crcShift (crcShift (crcShift r))))))) ^^^ 0xFFFFFFFF#32

/-- `crc_fold`, by the CRC32 parameter (41_crc32.md R180; log 3). -/
def crcFold (c : CrcAlgorithm) (acc : BitVec 32) (b : Byte) : BitVec 32 :=
  match c with
  | .isoHdlc => crcFoldIsoHdlc acc b
  | .other n => Config.crcOther n acc b

/-- `crc32(s)`, the fold of crc_fold over s from 0 (41_crc32.md R181). -/
def crc32 (c : CrcAlgorithm) (s : List Byte) : BitVec 32 := s.foldl (crcFold c) 0

/-- `msg_crc(I, k, v, n, P)` (41_crc32.md R183). -/
def msgCrc (c : CrcAlgorithm) (i : Intron) (k v : Byte) (n : BitVec 16) (p : List Byte) : BitVec 32 :=
  crc32 c (intronBytes i ++ [k] ++ [v] ++ be16 n ++ p)

/-! ### Acceptance -/

/-- `accept(k, n)` (40_vocabulary.md R150). -/
def accept (cfg : Config) (k : Byte) (n : BitVec 16) : Bool :=
  if k = cfg.kindCode.code .deviceInfoV2 then decide (n = 6)
  else if k = cfg.kindCode.code .clientConfigV2 then decide (10 ≤ n.toNat) && decide (n.toNat ≤ 64)
  else if k = cfg.kindCode.code .packetV2 then true
  else if k = cfg.kindCode.code .scanStart then decide (n = 0)
  else if k = cfg.kindCode.code .scanStop then decide (n = 0)
  else if k = cfg.kindCode.code .scanApCnt then decide (n = 0)
  else if k = cfg.kindCode.code .scanApGet then decide (n = 0) || decide (n = 33)
  else false

/-- `streamed(k)` (40_vocabulary.md R151). -/
def isStreamed (cfg : Config) (k : Byte) : Bool := decide (k = cfg.kindCode.code .packetV2)

/-! ### The wire bytes of a message -/

/-- `frame(I, k, v, P)` with n = len(P) <= 65535 (42_framer.md R200; the layout is 30_encoding.md R110). For a longer P,
which the spec leaves open, PayloadSize is len(P) mod 65536 and P stays whole (DESIGN CHOICE, log 21). -/
def frame (c : CrcAlgorithm) (i : Intron) (k v : Byte) (p : List Byte) : List Byte :=
  let n := BitVec.ofNat 16 p.length
  intronBytes i ++ [k] ++ [v] ++ be16 n ++ be32 (msgCrc c i k v n p) ++ p

end Sys2Proof.Machine
end

