-- ==== Sys2Proof/Machine/Ops.lean ====
section
/-! DEFINITION. The named operations the meanings share: SCRATCH, the queues, the event history, the records of faults
and refusals, the deframer's SoftReset, and the agents' ports. -/

namespace Sys2Proof.Machine

/-- What every meaning answers. -/
abbrev Outcome := Host.Outcome State Fault Refusal

/-! ### SCRATCH (20_memory.md R80) -/

/-- What an index nothing has written reads as. The spec leaves SCRATCH unspecified at reset and no rule reads an
unwritten byte (10_state.md R42; DESIGN CHOICE, log 4; unsafe). -/
def scratchUnwritten : Byte := 0

/-- Reads one byte. -/
def Memory.read : Memory → Nat → Byte
  | [], _ => scratchUnwritten
  | (a, b) :: m, i => if a = i then b else Memory.read m i

/-- Writes one byte, keeping the canonical form. -/
def Memory.write : Memory → Nat → Byte → Memory
  | [], i, b => if b = scratchUnwritten then [] else [(i, b)]
  | (a, c) :: m, i, b =>
    if i < a then (if b = scratchUnwritten then (a, c) :: m else (i, b) :: (a, c) :: m)
    else if i = a then (if b = scratchUnwritten then m else (a, b) :: m)
    else (a, c) :: Memory.write m i b

/-- Cells of indices from `lo` up, strictly rising, below SCRATCH_SIZE, none equal to the unwritten byte. -/
def Memory.wfFrom : Nat → Memory → Bool
  | _, [] => true
  | lo, (a, b) :: m =>
    decide (lo ≤ a) && decide (a < Config.scratchSize) && decide (b ≠ scratchUnwritten) &&
      Memory.wfFrom (a + 1) m

/-- The canonical form of SCRATCH. -/
def Memory.wf (m : Memory) : Bool := Memory.wfFrom 0 m

/-- `MemRead(SCRATCH, i, n)` (20_memory.md R80). -/
def memRead (m : Memory) (i n : Nat) : List Byte := (List.range n).map fun k => m.read (i + k)

/-- `MemWrite(SCRATCH, i, 1, b)`: fault SCRATCH_OVERFLOW at an index of 64 or more (20_memory.md R82). -/
def memWrite (m : Memory) (i : Nat) (b : Byte) : Except FaultCode Memory :=
  if i < Config.scratchSize then .ok (m.write i b) else .error (.scratchOverflow i)

/-! ### Events, faults, refusals -/

/-- `emit E` (00_scope.md R9): append to the history. -/
def State.emit (s : State) (e : Event) : State := { s with history := s.history ++ [e] }

/-- Several events in order (60_exceptions.md R346). -/
def State.emitAll (s : State) (es : List Event) : State := { s with history := s.history ++ es }

/-- Adds to a set held as a list without repeats (log 10). -/
def insertOnce {α : Type} [DecidableEq α] (x : α) (xs : List α) : List α :=
  if x ∈ xs then xs else xs ++ [x]

/-- `fault F`: the code joins the sticky FAULT set (60_exceptions.md R343). -/
def State.recordFault (s : State) (f : FaultCode) : State := { s with fault := insertOnce f s.fault }

/-- `refuse R`: the code joins the sticky REFUSED set (60_exceptions.md R344). -/
def State.refuse (s : State) (c : RefuseCode) : State := { s with refused := insertOnce c s.refused }

/-- The end of every step whose pseudocode may fault: "the faulting step has no other effect" (60_exceptions.md R343),
so a fault leaves the state `s` from before the step with only the record added, and the block goes on (log 8). -/
def finish (s : State) : Except FaultCode State → Outcome
  | .ok t => .next t
  | .error f => .next (s.recordFault f)

/-! ### Recovery: SoftReset (43_deframer.md R234, 60_exceptions.md R347) -/

/-- SoftReset: abandon an open stream, clear every per-message register, return to AwaitingIntron. -/
def softReset (s : State) : State :=
  let t := if s.streamOpen then { s.emit .tunAbandon with streamOpen := false } else s
  { t with
    dstate := .ai, win := 0, wfill := 0, crcAcc := 0, hdrCnt := 0, hdrKind := 0, hdrVar := 0, hdrSize := 0
    crcRx := 0, payCnt := 0, streamed := false }

/-! ### The queues (45_queue_bridge.md) -/

/-- Q[q], front first. -/
def State.queue (s : State) : QId → List Entry
  | .r2s => s.r2s
  | .s2r => s.s2r

/-- `Q[q] <- es`. -/
def State.setQueue (s : State) (q : QId) (es : List Entry) : State :=
  match q with
  | .r2s => { s with r2s := es }
  | .s2r => { s with s2r := es }

/-- HANDLE is the handle of an entry of either queue (45_queue_bridge.md R292, R297). -/
def State.handleInUse (s : State) (h : BitVec 32) : Bool :=
  s.r2s.any (fun e => decide (e.handle = h)) || s.s2r.any (fun e => decide (e.handle = h))

/-- Does a DEQ of `q` wait, issued when `q` was empty and not completed (60_exceptions.md R345)? R2S is drained by the serial
domain, S2R by the radio domain (45_queue_bridge.md R290). -/
def State.held (s : State) : QId → Bool
  | .r2s => s.heldSerial
  | .s2r => s.heldRadio

/-- Says whether a DEQ of `q` waits. -/
def State.setHeld (s : State) (q : QId) (b : Bool) : State :=
  match q with
  | .r2s => { s with heldSerial := b }
  | .s2r => { s with heldRadio := b }

/-! ### The agents' ports (log 5) -/

/-- The queue whose DEQ can hold an agent: the one it drains (30_encoding.md R124). -/
def drainedBy : Agent → Option QId
  | .serial => some .r2s
  | .radio => some .s2r
  | .system => none

/-- The commands an agent has issued and the block has not taken. -/
def State.pending (s : State) : Agent → List Command
  | .serial => s.serialPort
  | .radio => s.radioPort
  | .system => s.systemPort

/-- Replaces an agent's pending commands. -/
def State.setPending (s : State) (a : Agent) (cs : List Command) : State :=
  match a with
  | .serial => { s with serialPort := cs }
  | .radio => { s with radioPort := cs }
  | .system => { s with systemPort := cs }

/-- The command port's admission of a word from agent `a`: the first failing check of RESERVED_OPCODE, WRONG_DOMAIN,
RESERVED_BITS, PAYLOAD_LENGTH_MISMATCH (60_exceptions.md R344). -/
def admission (a : Agent) (c : Command) : Except RefuseCode Instr :=
  match opcOf c.word with
  | none => .error .reservedOpcode
  | some o => if mayIssue a c.word o then decodeCommand c.word c.sideband else .error .wrongDomain

/-- The DEQ agent `a` waits in, if any. -/
def State.heldDeq (s : State) (a : Agent) : Option QId :=
  match drainedBy a with
  | none => none
  | some q => if s.held q then some q else none

/-- What agent `a` does with its turn. Held in DEQ_EMPTY(q), it has no enabled step until q has an entry, and then its
DEQ completes (45_queue_bridge.md R295; log 6). Otherwise its oldest command is taken to the port. -/
def fetchFor (s : State) (a : Agent) : State × Option (Except RefuseCode Instr) :=
  match s.heldDeq a with
  | some q => if s.queue q = [] then (s, none) else (s, some (.ok (.deq q)))
  | none =>
    match s.pending a with
    | [] => (s, none)
    | c :: cs => (s.setPending a cs, some (admission a c))

/-- The next turn. With no turn left the block is idle with its state held (60_exceptions.md R354). -/
def fetch (s : State) : State × Option (Except RefuseCode Instr) :=
  match s.turns with
  | [] => (s, none)
  | a :: ts => fetchFor { s with turns := ts } a

end Sys2Proof.Machine
end

