-- ==== Sys2Proof/Machine/Flags.lean ====
section
/-! DEFINITION. The block's only flag, the checksum's validity (10_state.md R44), the result codes it leads to
(10_state.md R43), and the status view (46_control.md R320). -/

namespace Sys2Proof.Machine

/-- CRC_CHECK (41_crc32.md R184): `valid <- (CRC_ACC = CRC_RX)`. -/
def crcValid (s : State) : Bool := decide (s.crcAcc = s.crcRx)

/-- LAST_RESULT of a dispatched or committed message: OK or CRC_BAD (43_deframer.md R231). -/
def deliveredResult (valid : Bool) : LastResult := if valid then .ok else .crcBad

/-- LAST_RESULT of a discarded message: DISCARD_OK or DISCARD_BAD (43_deframer.md R231). -/
def discardedResult (valid : Bool) : LastResult := if valid then .discardOk else .discardBad

/-- DSTATE's encoding (10_state.md R31). -/
def DState.bits : DState → BitVec 2
  | .ai => 0
  | .ah => 1
  | .rp => 2
  | .dp => 3

/-- LAST_RESULT's encoding (10_state.md R43). -/
def LastResult.bits : LastResult → BitVec 3
  | .none => 0
  | .ok => 1
  | .crcBad => 2
  | .badHeader => 3
  | .discardOk => 4
  | .discardBad => 5

/-- FAULTED: the FAULT record is not empty (46_control.md R320). -/
def State.faulted (s : State) : Bool := decide (s.fault ≠ [])

/-- COUNT(q) in the 8 bits STAT4 gives it (46_control.md R320; exact because QCAP <= 255, log 17). -/
def countBits (s : State) (q : QId) : BitVec 8 := BitVec.ofNat 8 (s.queue q).length

/-- STAT0 (46_control.md R320). -/
def stat0 (s : State) : BitVec 64 :=
  fieldAt s.dstate.bits 0 ||| fieldAt s.wfill 2 ||| fieldAt s.hdrCnt 6 ||| fieldAt (bit s.streamed) 10 |||
    fieldAt (bit s.streamOpen) 11 ||| fieldAt s.lastResult.bits 12 ||| fieldAt (bit s.faulted) 15 |||
    fieldAt s.hdrKind 16 ||| fieldAt s.hdrVar 24 ||| fieldAt s.hdrSize 32 ||| fieldAt s.payCnt 48

/-- STAT1 (46_control.md R320). -/
def stat1 (s : State) : BitVec 64 := fieldAt s.crcAcc 0 ||| fieldAt s.crcRx 32

/-- STAT2 (46_control.md R320). -/
def stat2 (s : State) : BitVec 64 := be64 s.intron

/-- STAT3 (46_control.md R320). -/
def stat3 (s : State) : BitVec 64 := s.win

/-- STAT4 (46_control.md R320); bits 63:16 read as 0. -/
def stat4 (s : State) : BitVec 64 := fieldAt (countBits s .r2s) 0 ||| fieldAt (countBits s .s2r) 8

end Sys2Proof.Machine
end

