-- ==== Sys2Proof/Machine/Control.lean ====
section
/-! DEFINITION. The control commands (46_control.md): the meanings of RD_STATE and HW_RESET. -/

namespace Sys2Proof.Machine

/-- RD_STATE (46_control.md R321): the status words of the state before the step. -/
def execRdState (s : State) : Outcome :=
  .next (s.emit (.state (stat0 s) (stat1 s) (stat2 s) (stat3 s) (stat4 s)))

/-- The Q_FREE events of a queue, front to back (70_reset_and_hazards.md R380). -/
def freeEvents (q : QId) (es : List Entry) : List Event := es.map fun e => .qFree q e.len e.handle

/-- The events of ResetProcedure in their order (70_reset_and_hazards.md R380, 60_exceptions.md R346 (4)). -/
def resetEvents (s : State) : List Event :=
  (if s.streamOpen then [.tunAbandon] else []) ++ freeEvents .r2s s.r2s ++ freeEvents .s2r s.s2r

/-- ResetProcedure (70_reset_and_hazards.md R380). SCRATCH, FAULT, REFUSED and H are kept; so are the parameters, the
agents' pending commands, and holds (46_control.md R322; log 15). -/
def resetProcedure (s : State) : State :=
  { s.emitAll (resetEvents s) with
    r2s := [], s2r := []
    dstate := .ai, win := 0, wfill := 0, crcAcc := 0, hdrCnt := 0, hdrKind := 0, hdrVar := 0, hdrSize := 0
    crcRx := 0, payCnt := 0, streamed := false, streamOpen := false
    intron := s.cfg.defaultIntron, lastResult := .none }

/-- HW_RESET (46_control.md R322). -/
def execHwReset (s : State) : Outcome := .next (resetProcedure s)

end Sys2Proof.Machine
end

