-- ==== Sys2Proof/Machine/Framer.lean ====
section
/-! DEFINITION. The framer (42_framer.md): the meaning of TX_MSG. -/

namespace Sys2Proof.Machine

/-- The transmit-side Intron switch (42_framer.md R203): after a CLIENTCONFIG_V2 has been sent. -/
def switchIntron (kind : Byte) (p : List Byte) (s : State) : State :=
  if kind = s.cfg.kindCode.code .clientConfigV2 then
    { s with intron := intronOf p }.emit (.intronSet (intronOf p) .tx)
  else s

/-- TX_MSG (42_framer.md R201, R202). With a payload that is not SIZE bytes long, which the port refuses, the frame has the
payload's own length (DESIGN CHOICE, log 18; unreachable). -/
def execTxMsg (kind var : Byte) (size : BitVec 16) (p : List Byte) (s : State) : Outcome :=
  if accept s.cfg kind size = false then .next (s.emit (.txReject kind var size))
  else .next (switchIntron kind p (s.emit (.txBytes (frame s.cfg.crc s.intron kind var p))))

end Sys2Proof.Machine
end

