-- ==== Sys2Proof/Machine/Queue.lean ====
section
/-! DEFINITION. The queue bridge (45_queue_bridge.md): the meanings of ENQ and DEQ. -/

namespace Sys2Proof.Machine

/-- ENQ's pseudocode (45_queue_bridge.md R292, R293, R297). -/
def enqueue (q : QId) (len : BitVec 16) (handle : BitVec 32) (s : State) : Except FaultCode State :=
  if s.handleInUse handle then .error (.handleReuse q handle)
  else if (s.queue q).length < s.cfg.qcap then
    .ok ((s.setQueue q (s.queue q ++ [⟨len, handle⟩])).emit (.qEnq q len handle))
  else .ok (s.emit (.qDrop q len handle))

/-- ENQ (45_queue_bridge.md R292). -/
def execEnq (q : QId) (len : BitVec 16) (handle : BitVec 32) (s : State) : Outcome :=
  finish s (enqueue q len handle s)

/-- DEQ (45_queue_bridge.md R294, R295): on an empty queue the issuing domain is held and nothing else happens; else the
front entry leaves, and the domain is not held (log 6). -/
def execDeq (q : QId) (s : State) : Outcome :=
  match s.queue q with
  | [] => .next (s.setHeld q true)
  | e :: es => .next (((s.setQueue q es).setHeld q false).emit (.qDeq q e.len e.handle))

end Sys2Proof.Machine
end

