-- ==== Sys2Proof/Machine/Deframer.lean ====
section
/-! DEFINITION. The deframer (43_deframer.md) with the CRC validator's micro-operations (41_crc32.md R184 to R186) and
the tunnel events it emits (44_tunnel.md); the meanings of RX_BYTE and DFR_RESET. -/

namespace Sys2Proof.Machine

/-! ### The validator's micro-operations -/

/-- CRC_SEED (41_crc32.md R185). -/
def crcSeed (s : State) : State := { s with crcAcc := crc32 s.cfg.crc (intronBytes s.intron) }

/-- CRC_FOLD (41_crc32.md R186). -/
def foldByte (s : State) (b : Byte) : State := { s with crcAcc := crcFold s.cfg.crc s.crcAcc b }

/-! ### AwaitingIntron -/

/-- `min(WFILL + 1, 8)` (43_deframer.md R221), on unsigned integers. -/
def fillNext (f : BitVec 4) : BitVec 4 := BitVec.ofNat 4 (min (f.toNat + 1) 8)

/-- WIN shifted by one byte (43_deframer.md R221). -/
def winNext (w : BitVec 64) (b : Byte) : BitVec 64 := (w <<< 8) ||| b.setWidth 64

/-- IntronStep (43_deframer.md R221). -/
def intronStep (b : Byte) (s : State) : State :=
  let t := { s with win := winNext s.win b, wfill := fillNext s.wfill }
  if fillNext s.wfill = 8 ∧ winNext s.win b = be64 s.intron then crcSeed { t with dstate := .ah, hdrCnt := 0 } else t

/-! ### Completion and dispatch -/

/-- IntronUpdate (43_deframer.md R233). -/
def intronUpdate (s : State) : State :=
  let i := intronOf (memRead s.scratch 0 8)
  { s with intron := i }.emit (.intronSet i .rx)

/-- Dispatch (43_deframer.md R232). -/
def dispatch (valid : Bool) (s : State) : State :=
  let t := s.emit (.dispatch s.hdrKind s.hdrVar (memRead s.scratch 0 s.hdrSize.toNat) valid)
  if s.hdrKind = s.cfg.kindCode.code .clientConfigV2 ∧ valid = true then intronUpdate t else t

/-- Complete up to its SoftReset (43_deframer.md R231): the discard, the commit or the dispatch. -/
def deliver (s : State) : State :=
  let valid := crcValid s
  if s.dstate = .dp then { s with lastResult := discardedResult valid }
  else if s.streamed then
    { s.emit (.tunCommit valid) with streamOpen := false, lastResult := deliveredResult valid }
  else { dispatch valid s with lastResult := deliveredResult valid }

/-- Complete (43_deframer.md R231). -/
def complete (s : State) : State := softReset (deliver s)

/-! ### AwaitingHeader -/

/-- BadHeader (43_deframer.md R224). -/
def badHeader (s : State) : State :=
  softReset { s.emit (.invalidHeader s.hdrKind s.hdrVar s.hdrSize) with lastResult := .badHeader }

/-- BeginStream (43_deframer.md R225); fault STREAM_OVERLAP if a stream is open (44_tunnel.md R275). -/
def beginStream (rdy : Bool) (s : State) : Except FaultCode State :=
  if s.streamOpen then .error .streamOverlap
  else
    let t := s.emit (.tunBegin s.hdrVar s.hdrSize rdy)
    if rdy then .ok { t with streamOpen := true, streamed := true, dstate := .rp }
    else .ok { t with streamed := false, dstate := .dp }

/-- The last line of HeaderComplete (43_deframer.md R223, R227): a zero-length payload completes at once. -/
def completeIfEmpty (s : State) : State :=
  if (s.dstate = .rp ∨ s.dstate = .dp) ∧ s.hdrSize = 0 then complete s else s

/-- HeaderComplete (43_deframer.md R223, R226). -/
def headerComplete (rdy : Bool) (s : State) : Except FaultCode State :=
  let t := { s with payCnt := 0 }
  if accept s.cfg s.hdrKind s.hdrSize = false then .ok (completeIfEmpty (badHeader t))
  else if isStreamed s.cfg s.hdrKind then
    match beginStream rdy t with
    | .error f => .error f
    | .ok u => .ok (completeIfEmpty u)
  else .ok (completeIfEmpty { t with dstate := .rp, streamed := false })

/-- The placement of one header byte (43_deframer.md R222, 30_encoding.md R112, R113). -/
def headerByte (b : Byte) (s : State) : State :=
  let i := s.hdrCnt
  let t :=
    if i = 0 then foldByte { s with hdrKind := b } b
    else if i = 1 then foldByte { s with hdrVar := b } b
    else if i = 2 then foldByte { s with hdrSize := b.setWidth 16 <<< 8 } b
    else if i = 3 then foldByte { s with hdrSize := s.hdrSize ||| b.setWidth 16 } b
    else { s with crcRx := (s.crcRx <<< 8) ||| b.setWidth 32 }
  { t with hdrCnt := i + 1 }

/-- HeaderStep (43_deframer.md R222). -/
def headerStep (b : Byte) (rdy : Bool) (s : State) : Except FaultCode State :=
  let t := headerByte b s
  if t.hdrCnt = 8 then headerComplete rdy t else .ok t

/-! ### ReceivingPayload and DiscardingPayload -/

/-- The common end of a payload byte: count it and complete at HDR_SIZE (43_deframer.md R228 to R230). -/
def countPayload (s : State) : State :=
  let t := { s with payCnt := s.payCnt + 1 }
  if s.payCnt + 1 = s.hdrSize then complete t else t

/-- StreamByte (43_deframer.md R228). -/
def streamByte (b : Byte) (s : State) : State := countPayload ((foldByte s b).emit (.tunUpdate b))

/-- ScratchByte (43_deframer.md R229). -/
def scratchByte (b : Byte) (s : State) : Except FaultCode State :=
  let t := foldByte s b
  match memWrite s.scratch s.payCnt.toNat b with
  | .error f => .error f
  | .ok m => .ok (countPayload { t with scratch := m })

/-- DiscardByte (43_deframer.md R230). -/
def discardByte (b : Byte) (s : State) : State := countPayload (foldByte s b)

/-! ### The commands -/

/-- RX_BYTE's case on DSTATE (43_deframer.md R220). -/
def receive (b : Byte) (rdy : Bool) (s : State) : Except FaultCode State :=
  match s.dstate with
  | .ai => .ok (intronStep b s)
  | .ah => headerStep b rdy s
  | .rp => if s.streamed then .ok (streamByte b s) else scratchByte b s
  | .dp => .ok (discardByte b s)

/-- RX_BYTE (43_deframer.md R220). -/
def execRxByte (b : Byte) (rdy : Bool) (s : State) : Outcome := finish s (receive b rdy s)

/-- DFR_RESET (43_deframer.md R235). -/
def execDfrReset (s : State) : Outcome := .next (softReset s)

end Sys2Proof.Machine
end

