-- ==== Sys2Proof/Machine/Vocabulary.lean ====
section
/-! DEFINITION. The wire-kind rows (40_vocabulary.md R153 to R161) as the opcodes the deframer runs when a header
completes, and the field extraction of a CLIENTCONFIG_V2 payload (40_vocabulary.md R155). -/

namespace Sys2Proof.Machine

/-- The header of the row is in the header registers and all 8 header bytes have arrived. -/
def latchHeader (k : Kind) (var : Byte) (size : BitVec 16) (s : State) : State :=
  { s with hdrKind := s.cfg.kindCode.code k, hdrVar := var, hdrSize := size, hdrCnt := 8 }

/-- A header of kind `k` completes (43_deframer.md R223): the effect an RX_BYTE has after placing the 8th header byte. -/
def execHeader (k : Kind) (var : Byte) (size : BitVec 16) (rdy : Bool) (s : State) : Outcome :=
  finish s (headerComplete rdy (latchHeader k var size s))

/-- DEVICE_INFO_V2 (40_vocabulary.md R153): 6 payload bytes follow. -/
def execDeviceInfoV2 (var : Byte) (s : State) : Outcome := execHeader .deviceInfoV2 var 6 false s

/-- CLIENTCONFIG_V2 (40_vocabulary.md R154): SIZE payload bytes follow. -/
def execClientConfigV2 (var : Byte) (size : BitVec 16) (s : State) : Outcome :=
  execHeader .clientConfigV2 var size false s

/-- PACKET_V2 (40_vocabulary.md R156): the tunnel is asked to begin, and `rdy` is its answer. -/
def execPacketV2 (var : Byte) (size : BitVec 16) (rdy : Bool) (s : State) : Outcome :=
  execHeader .packetV2 var size rdy s

/-- SCAN_START (40_vocabulary.md R157): no payload, completes at once. -/
def execScanStart (var : Byte) (s : State) : Outcome := execHeader .scanStart var 0 false s

/-- SCAN_STOP (40_vocabulary.md R158): no payload, completes at once. -/
def execScanStop (var : Byte) (s : State) : Outcome := execHeader .scanStop var 0 false s

/-- SCAN_AP_CNT (40_vocabulary.md R159): no payload, completes at once. -/
def execScanApCnt (var : Byte) (s : State) : Outcome := execHeader .scanApCnt var 0 false s

/-- SCAN_AP_GET request (40_vocabulary.md R160): no payload, completes at once. -/
def execScanApGetReq (var : Byte) (s : State) : Outcome := execHeader .scanApGet var 0 false s

/-- SCAN_AP_GET response (40_vocabulary.md R161): 33 payload bytes follow. -/
def execScanApGetRsp (var : Byte) (s : State) : Outcome := execHeader .scanApGet var 33 false s

/-- `cc_fields(p)` (40_vocabulary.md R155): the Intron, SSID and password a consumer reads from a CLIENTCONFIG_V2
payload of 10 to 64 bytes; a byte a shorter one lacks is taken as 0 (DESIGN CHOICE, log 18). -/
def ccFields (passCap : Nat) (p : List Byte) : Intron × List Byte × List Byte :=
  let n := p.length
  let sl := (p.getD 8 0).toNat
  let ssidAv := min sl (n - 9)
  let ssid := (p.drop 9).take (min ssidAv Config.ssidCap)
  let pos := 9 + sl
  let pass :=
    if pos < n then
      (p.drop (pos + 1)).take (min (min (p.getD pos 0).toNat (n - pos - 1)) passCap)
    else []
  (intronOf p, ssid, pass)

/-- `cc_fields` with the block's own PASS_CAP (00_scope.md R7, 40_vocabulary.md R155). -/
def configFields (cfg : Config) (p : List Byte) : Intron × List Byte × List Byte := ccFields cfg.passCap p

/-- What a consumer reads from a SCAN_AP_GET response payload: the 32-byte SSID field and RequiresPassword, 0 for false
and 1 for true (40_vocabulary.md R161). The block interprets neither. The spec gives the layout for 33 bytes only: of a shorter
payload, such as a request's empty one, the bytes present and RequiresPassword 0 are read, and of a longer one the first 33
bytes (DESIGN CHOICE, log 18). -/
def apFields (p : List Byte) : List Byte × Byte := (p.take 32, p.getD 32 0)

/-- The default payload that an index of 0xFF comes with (40_vocabulary.md R161). -/
def apDefaultPayload : List Byte := List.replicate 33 0

/-- The direction column of the message table, as the co-processor endpoint sees it (40_vocabulary.md R152). -/
inductive Direction where
  | transmitOnly
  | receiveOnly
  | bidirectional
  | requestResponse
  deriving DecidableEq, Repr

/-- The direction of each kind (40_vocabulary.md R153 to R161). The block enforces none (R152). -/
def kindDirection : Kind → Direction
  | .deviceInfoV2 => .transmitOnly
  | .clientConfigV2 => .receiveOnly
  | .packetV2 => .bidirectional
  | .scanStart => .receiveOnly
  | .scanStop => .receiveOnly
  | .scanApCnt => .transmitOnly
  | .scanApGet => .requestResponse

end Sys2Proof.Machine
end

