-- ==== Sys2Proof/Machine/Dispatch.lean ====
section
/-! DEFINITION. One arm per row of spec/opcode_table.json. -/

namespace Sys2Proof.Machine

def exec (i : Instr) (s : State) : Host.Outcome State Fault Refusal :=
  match i with
  | .rxByte b rdy => Sys2Proof.Machine.execRxByte b rdy s
  | .dfrReset => Sys2Proof.Machine.execDfrReset s
  | .txMsg kind var size payload => Sys2Proof.Machine.execTxMsg kind var size payload s
  | .enq q len handle => Sys2Proof.Machine.execEnq q len handle s
  | .deq q => Sys2Proof.Machine.execDeq q s
  | .rdState => Sys2Proof.Machine.execRdState s
  | .hwReset => Sys2Proof.Machine.execHwReset s
  | .deviceInfoV2 var => Sys2Proof.Machine.execDeviceInfoV2 var s
  | .clientConfigV2 var size => Sys2Proof.Machine.execClientConfigV2 var size s
  | .packetV2 var size rdy => Sys2Proof.Machine.execPacketV2 var size rdy s
  | .scanStart var => Sys2Proof.Machine.execScanStart var s
  | .scanStop var => Sys2Proof.Machine.execScanStop var s
  | .scanApCnt var => Sys2Proof.Machine.execScanApCnt var s
  | .scanApGetReq var => Sys2Proof.Machine.execScanApGetReq var s
  | .scanApGetRsp var => Sys2Proof.Machine.execScanApGetRsp var s

end Sys2Proof.Machine
end

