-- ==== Sys2Proof/Machine/Port.lean ====
section
/-! DEFINITION. How a command comes to an agent's port, and how one instruction is placed where the next step fetches
it (log 12). -/

namespace Sys2Proof.Machine

/-- The agent that issues a command word: its domain (30_encoding.md R124); the system agent for RD_STATE, which any
agent may issue, and for a word no command has. -/
def issuer (w : CmdWord) : Agent :=
  match opcOf w with
  | none => .system
  | some o =>
    if mayIssue .system w o then .system else if mayIssue .serial w o then .serial else .radio

/-- The command is the agent's next, it is the agent's turn, and the agent is not held. -/
def placeCommand (s : State) (a : Agent) (c : Command) : State :=
  let t := match drainedBy a with
    | none => s
    | some q => s.setHeld q false
  { t.setPending a (c :: t.pending a) with turns := a :: s.turns }

/-- The word of `RX 0x00, rdy`: the last checksum byte, the one that completes a header (30_encoding.md R119). -/
def lastHeaderByteWord (rdy : Bool) : CmdWord := fieldAt (0x01 : Byte) 56 ||| fieldAt (bit rdy) 8

/-- A header word whose first 7 header bytes have arrived: the header registers hold it and the serial domain's next
command brings the last checksum byte, 0 (43_deframer.md R222). -/
def placeHeader (s : State) (w : HdrWord) (rdy : Bool) : State :=
  placeCommand
    { s with dstate := .ah, hdrCnt := 7, hdrKind := hdrKindField w, hdrVar := hdrVarField w, hdrSize := hdrSizeField w }
    .serial ⟨lastHeaderByteWord rdy, []⟩

/-- A table word (Decode.lean's `tableWords`) placed where the next step fetches it. -/
def placeWord (s : State) (nbits w : Nat) : State :=
  match tableWords nbits w with
  | none => s
  | some (.command c p) => placeCommand s (issuer c) ⟨c, p⟩
  | some (.header h rdy) => placeHeader s h rdy

end Sys2Proof.Machine
end

