-- ==== Sys2Proof/Machine/Step.lean ====
section
/-! DEFINITION. One step of the block: the next turn's command, taken from its agent's port, admitted or refused, and
run; and the placing of one instruction where the next step fetches it. -/

namespace Sys2Proof.Machine

/-- One step (00_scope.md R5, R10). A turn without an enabled step, and no turn at all, leave the block as it is
(45_queue_bridge.md R295, 60_exceptions.md R354; log 16); a refused word is taken and recorded (60_exceptions.md R344;
log 9). -/
def step (s : State) : Host.Outcome State Fault Refusal :=
  match fetch s with
  | (t, none) => .next t
  | (t, some (.error c)) => .next (t.refuse c)
  | (t, some (.ok i)) => exec i t

/-- The instruction of table word `w` placed to be fetched next (log 12). -/
def State.withFetchWord (s : State) (nbits w : Nat) : State := placeWord s nbits w

end Sys2Proof.Machine
end

