-- ==== Sys2Proof/Machine/Assembler.lean ====
section
/-! DEFINITION. The assembler forms (30_encoding.md R125), the pseudo-instructions with their expansions (R126), and the
chunk operation `process(bytes)` (43_deframer.md R236). -/

namespace Sys2Proof.Machine

/-- KIND is written by name or as a byte (30_encoding.md R125). -/
inductive KindRef where
  | name (k : Kind)
  | byte (b : Byte)
  deriving DecidableEq, Repr

/-- A line of assembler: the commands of 30_encoding.md R125 and the pseudo-instructions of R126. -/
inductive Asm where
  | rx (b : Byte) (rdy : Bool := false)
  | drst
  | tx (kind : KindRef) (var : Byte) (p : List Byte)
  | enq (q : QId) (len : BitVec 16) (handle : BitVec 32)
  | deq (q : QId)
  | rdst
  | hrst
  | rxs (bs : List Byte) (rdy : Bool := false)
  | rxm (intron : Intron) (kind : KindRef) (var : Byte) (p : List Byte) (rdy : Bool := false)
  | linkup
  | linkdn
  deriving DecidableEq, Repr

/-- The byte a KIND stands for. -/
def KindRef.code (cfg : Config) : KindRef → Byte
  | .name k => cfg.kindCode.code k
  | .byte b => b

/-- `TX KIND, var, P`: SIZE = len(P) (30_encoding.md R125). For more than 65535 bytes, which the spec leaves open, SIZE is
len(P) mod 65536 and P stays whole (DESIGN CHOICE, log 21). -/
def txInstr (cfg : Config) (kind : KindRef) (var : Byte) (p : List Byte) : Instr :=
  .txMsg (kind.code cfg) var (BitVec.ofNat 16 p.length) p

/-- The expansion of a line into commands (30_encoding.md R125, R126). -/
def Asm.expand (cfg : Config) : Asm → List Instr
  | .rx b rdy => [.rxByte b rdy]
  | .drst => [.dfrReset]
  | .tx kind var p => [txInstr cfg kind var p]
  | .enq q len handle => [.enq q len handle]
  | .deq q => [.deq q]
  | .rdst => [.rdState]
  | .hrst => [.hwReset]
  | .rxs bs rdy => bs.map fun b => .rxByte b rdy
  | .rxm i kind var p rdy => (frame cfg.crc i (kind.code cfg) var p).map fun b => .rxByte b rdy
  | .linkup => [txInstr cfg (.name .packetV2) 1 []]
  | .linkdn => [txInstr cfg (.name .packetV2) 0 []]

/-- The instruction as it stands at a command port; a wire row has no command word. -/
def portCommand (cfg : Config) (i : Instr) : Option Command :=
  match encode cfg i with
  | .command w p => some ⟨w, p⟩
  | .header _ _ => none

/-- The commands a line assembles to (30_encoding.md R119, R125). -/
def Asm.assemble (cfg : Config) (a : Asm) : List Command := (a.expand cfg).filterMap (portCommand cfg)

/-- One outcome after another: the second runs only from a next state. -/
def andThen (o : Outcome) (f : State → Outcome) : Outcome :=
  match o with
  | .next s => f s
  | .fault r => .fault r
  | .refused r => .refused r

/-- `n` steps of the block, one after another. -/
def runSteps : Nat → State → Outcome
  | 0, s => .next s
  | n + 1, s => andThen (step s) (runSteps n)

/-- `process(bytes)`: one RX_BYTE per byte, in order, all with the same RDY (43_deframer.md R236). -/
def process (rdy : Bool) : List Byte → State → Outcome
  | [], s => .next s
  | b :: bs, s => andThen (exec (.rxByte b rdy) s) (process rdy bs)

end Sys2Proof.Machine
end

