-- ==== Sys2Proof/Machine/Events.lean ====
section
/-! DEFINITION. What the event history means to those who read it (60_exceptions.md R342): codes, consumers, and the
serial output stream (42_framer.md R204). -/

namespace Sys2Proof.Machine

/-- Who an event is delivered to (60_exceptions.md R342). -/
inductive Consumer where
  | handler
  | tunnel
  | serialDriver
  | domain (a : Agent)
  /-- The agent that issued the RD_STATE, whichever it was. -/
  | issuer
  | log
  deriving DecidableEq, Repr

/-- The code of an event (60_exceptions.md R342). -/
def Event.code : Event → BitVec 8
  | .dispatch _ _ _ _ => 0x01
  | .invalidHeader _ _ _ => 0x02
  | .tunBegin _ _ _ => 0x03
  | .tunUpdate _ => 0x04
  | .tunCommit _ => 0x05
  | .tunAbandon => 0x06
  | .intronSet _ _ => 0x07
  | .txBytes _ => 0x08
  | .txReject _ _ _ => 0x09
  | .qEnq _ _ _ => 0x0A
  | .qDrop _ _ _ => 0x0B
  | .qDeq _ _ _ => 0x0C
  | .qFree _ _ _ => 0x0D
  | .state _ _ _ _ _ => 0x0E

/-- The code of a fault (60_exceptions.md R343). -/
def FaultCode.code : FaultCode → Nat
  | .handleReuse _ _ => 1
  | .streamOverlap => 2
  | .scratchOverflow _ => 3

/-- The domain that fills a queue (45_queue_bridge.md R290). -/
def producer : QId → Agent
  | .r2s => .radio
  | .s2r => .serial

/-- The domain that drains a queue (45_queue_bridge.md R290, 90_conflicts.md C1). -/
def consumer : QId → Agent
  | .r2s => .serial
  | .s2r => .radio

/-- Who an event is delivered to (60_exceptions.md R342). R342 names no consumer for INTRON_SET. A Q_FREE goes to the
queue's two domains, Q_ENQ and Q_DROP to its producer and Q_DEQ to its consumer: R342 says "the producing or consuming
domain" (DEDUCED, log 19). -/
def Event.consumers : Event → List Consumer
  | .dispatch _ _ _ _ => [.handler]
  | .invalidHeader _ _ _ => [.handler]
  | .tunBegin _ _ _ => [.tunnel]
  | .tunUpdate _ => [.tunnel]
  | .tunCommit _ => [.tunnel]
  | .tunAbandon => [.tunnel]
  | .intronSet _ _ => []
  | .txBytes _ => [.serialDriver]
  | .txReject _ _ _ => [.log]
  | .qEnq q _ _ => [.domain (producer q)]
  | .qDrop q _ _ => [.domain (producer q), .log]
  | .qDeq q _ _ => [.domain (consumer q)]
  | .qFree q _ _ => [.domain (producer q), .domain (consumer q)]
  | .state _ _ _ _ _ => [.issuer]

/-- The bytes one event puts on the serial output: those of a TX_BYTES (42_framer.md R204). -/
def Event.outBytes : Event → List Byte
  | .txBytes bs => bs
  | .dispatch _ _ _ _ => []
  | .invalidHeader _ _ _ => []
  | .tunBegin _ _ _ => []
  | .tunUpdate _ => []
  | .tunCommit _ => []
  | .tunAbandon => []
  | .intronSet _ _ => []
  | .txReject _ _ _ => []
  | .qEnq _ _ _ => []
  | .qDrop _ _ _ => []
  | .qDeq _ _ _ => []
  | .qFree _ _ _ => []
  | .state _ _ _ _ _ => []

/-- The serial output stream: the bytes of the TX_BYTES events, whole and in order (42_framer.md R204). -/
def serialOutput (h : List Event) : List Byte := h.flatMap Event.outBytes

/-! ### Views of a history -/

/-- The entry an event takes into queue `q`: that of a Q_ENQ (45_queue_bridge.md R296). -/
def Event.entered (q : QId) : Event → Option Entry
  | .qEnq p l h => if p = q then some ⟨l, h⟩ else none
  | .dispatch _ _ _ _ => none
  | .invalidHeader _ _ _ => none
  | .tunBegin _ _ _ => none
  | .tunUpdate _ => none
  | .tunCommit _ => none
  | .tunAbandon => none
  | .intronSet _ _ => none
  | .txBytes _ => none
  | .txReject _ _ _ => none
  | .qDrop _ _ _ => none
  | .qDeq _ _ _ => none
  | .qFree _ _ _ => none
  | .state _ _ _ _ _ => none

/-- The entry an event takes out of queue `q`: that of a Q_DEQ, or of a Q_FREE at hardware reset
(45_queue_bridge.md R296, 20_memory.md R95). -/
def Event.left (q : QId) : Event → Option Entry
  | .qDeq p l h => if p = q then some ⟨l, h⟩ else none
  | .qFree p l h => if p = q then some ⟨l, h⟩ else none
  | .dispatch _ _ _ _ => none
  | .invalidHeader _ _ _ => none
  | .tunBegin _ _ _ => none
  | .tunUpdate _ => none
  | .tunCommit _ => none
  | .tunAbandon => none
  | .intronSet _ _ => none
  | .txBytes _ => none
  | .txReject _ _ _ => none
  | .qEnq _ _ _ => none
  | .qDrop _ _ _ => none
  | .state _ _ _ _ _ => none

/-- The entries a history took into queue `q`, in order. -/
def entriesIn (q : QId) (h : List Event) : List Entry := h.filterMap (Event.entered q)

/-- The entries a history took out of queue `q`, in order. -/
def entriesOut (q : QId) (h : List Event) : List Entry := h.filterMap (Event.left q)

/-- One event against the tunnel's protocol (44_tunnel.md R270): `some b` with `b` saying whether a stream is open,
`none` once the protocol has been broken. -/
def tunnelNext (o : Option Bool) (e : Event) : Option Bool :=
  match o, e with
  | none, _ => none
  | some open_, .tunBegin _ _ answer => if open_ then none else some answer
  | some open_, .tunUpdate _ => if open_ then some true else none
  | some open_, .tunCommit _ => if open_ then some false else none
  | some open_, .tunAbandon => if open_ then some false else none
  | some open_, _ => some open_

/-- A history against the tunnel's protocol, from no stream open. -/
def tunnelPhase (h : List Event) : Option Bool := h.foldl tunnelNext (some false)

end Sys2Proof.Machine
end

