-- ==== Sys2Proof/Safety.lean ====
section
/-! DEFINITION. What counts as a safe run: the end of a run (60_exceptions.md R355) and the invariants of a reachable
state (10_state.md R47, 45_queue_bridge.md R297, 20_memory.md R80), each under its own name. -/

namespace Sys2Proof.Machine

/-- The domain that drains `q` is held in DEQ_EMPTY(q): its DEQ waits and `q` is empty. A successful ENQ on `q` lifts the
hold, before the waiting DEQ has completed (60_exceptions.md R345, 45_queue_bridge.md R295). -/
def State.inHold (s : State) (q : QId) : Bool := s.held q && decide (s.queue q = [])

/-- No domain is held in DEQ_EMPTY (60_exceptions.md R345). -/
def State.noHold (s : State) : Bool := !s.inHold .r2s && !s.inHold .s2r

/-- A run has ended well in this state (60_exceptions.md R355): every command was admitted, no fault was recorded, no
domain is held. A command still at a port has not been admitted, so the ports are empty (DEDUCED, log 5). -/
def State.endedWell (s : State) : Bool :=
  decide (s.refused = []) && decide (s.fault = []) && s.noHold &&
    decide (s.serialPort = []) && decide (s.radioPort = []) && decide (s.systemPort = [])

/-- 10_state.md R47 (a). -/
structure AwaitingIntronInv (s : State) : Prop where
  hdrCnt : s.hdrCnt = 0
  payCnt : s.payCnt = 0
  streamed : s.streamed = false
  streamOpen : s.streamOpen = false
  crcAcc : s.crcAcc = 0

/-- 10_state.md R47 (b). `mark` is the length the history had at the last Intron match (log 20), so "INTRON was changed by
TX_MSG since the match" says that the INTRON_SET of its present value by the transmit side stands after the mark. -/
structure AwaitingHeaderInv (mark : Nat) (s : State) : Prop where
  hdrCnt : s.hdrCnt.toNat ≤ 7
  wfill : s.wfill = 8
  win : s.win = be64 s.intron ∨ Event.intronSet s.intron .tx ∈ s.history.drop mark
  payCnt : s.payCnt = 0
  streamed : s.streamed = false
  streamOpen : s.streamOpen = false

/-- 10_state.md R47 (c) and (e). -/
structure ReceivingPayloadInv (s : State) : Prop where
  hdrCnt : s.hdrCnt = 8
  wfill : s.wfill = 8
  payCnt : s.payCnt.toNat < s.hdrSize.toNat
  accepted : accept s.cfg s.hdrKind s.hdrSize = true
  streamOpen : s.streamed = s.streamOpen
  streamedKind : s.streamed = true ↔ s.hdrKind = s.cfg.kindCode.code .packetV2
  scratchFits : s.streamed = false → s.hdrSize.toNat ≤ Config.scratchSize

/-- 10_state.md R47 (d). -/
structure DiscardingPayloadInv (s : State) : Prop where
  hdrCnt : s.hdrCnt = 8
  wfill : s.wfill = 8
  payCnt : s.payCnt.toNat < s.hdrSize.toNat
  packetKind : s.hdrKind = s.cfg.kindCode.code .packetV2
  streamed : s.streamed = false
  streamOpen : s.streamOpen = false

/-- The invariants of 10_state.md R47, over parameters that meet 00_scope.md R7; `mark` is the length the history had at
the last Intron match. -/
structure Inv (mark : Nat) (s : State) : Prop where
  cfg : s.cfg.wf = true
  markBound : mark ≤ s.history.length
  awaitingIntron : s.dstate = .ai → AwaitingIntronInv s
  awaitingHeader : s.dstate = .ah → AwaitingHeaderInv mark s
  receivingPayload : s.dstate = .rp → ReceivingPayloadInv s
  discardingPayload : s.dstate = .dp → DiscardingPayloadInv s
  wfill : s.wfill.toNat ≤ 8
  hdrCnt : s.hdrCnt.toNat ≤ 8
  r2sCount : s.r2s.length ≤ s.cfg.qcap
  s2rCount : s.s2r.length ≤ s.cfg.qcap

/-- The mark after a step from `s` to `t`: the Intron match is the one step from AwaitingIntron to AwaitingHeader
(43_deframer.md R221), and it emits nothing. -/
def matchMark (mark : Nat) (s t : State) : Nat :=
  if s.dstate = .ai ∧ t.dstate = .ah then s.history.length else mark

/-- R48's soft-reset column (10_state.md): what a soft reset leaves of the deframer's registers. -/
def softResetColumn (s : State) : State :=
  { s with
    dstate := .ai, win := 0, wfill := 0, crcAcc := 0, hdrCnt := 0, hdrKind := 0, hdrVar := 0, hdrSize := 0
    crcRx := 0, payCnt := 0, streamed := false, streamOpen := false }

/-- The deframer's and framer's registers, owned by the serial domain (60_exceptions.md R351, 10_state.md R30: DSTATE
through LAST_RESULT), are equal in two states. -/
structure SameSerialState (s t : State) : Prop where
  dstate : t.dstate = s.dstate
  intron : t.intron = s.intron
  win : t.win = s.win
  wfill : t.wfill = s.wfill
  crcAcc : t.crcAcc = s.crcAcc
  hdrCnt : t.hdrCnt = s.hdrCnt
  hdrKind : t.hdrKind = s.hdrKind
  hdrVar : t.hdrVar = s.hdrVar
  hdrSize : t.hdrSize = s.hdrSize
  crcRx : t.crcRx = s.crcRx
  payCnt : t.payCnt = s.payCnt
  streamed : t.streamed = s.streamed
  streamOpen : t.streamOpen = s.streamOpen
  scratch : t.scratch = s.scratch
  lastResult : t.lastResult = s.lastResult

/-- Everything the serial domain's registers are not is equal in two states, but for the history. -/
structure SameOutsideDeframer (s t : State) : Prop where
  cfg : t.cfg = s.cfg
  r2s : t.r2s = s.r2s
  s2r : t.s2r = s.s2r
  fault : t.fault = s.fault
  refused : t.refused = s.refused
  heldSerial : t.heldSerial = s.heldSerial
  heldRadio : t.heldRadio = s.heldRadio
  serialPort : t.serialPort = s.serialPort
  radioPort : t.radioPort = s.radioPort
  systemPort : t.systemPort = s.systemPort
  turns : t.turns = s.turns

/-- No 8-byte window of `g || I` other than its last 8 bytes equals I (42_framer.md R205). -/
def NoEarlyMatch (g : List Byte) (i : Intron) : Prop :=
  ∀ j, j < g.length → ((g ++ intronBytes i).drop j).take 8 ≠ intronBytes i

/-- The fields an RX_BYTE sequence starts from in AwaitingIntron right after a soft or hardware reset. -/
structure FreshIntronSearch (s : State) : Prop where
  dstate : s.dstate = .ai
  wfill : s.wfill = 0
  streamOpen : s.streamOpen = false

/-- Every handle in either queue, R2S first. -/
def State.handles (s : State) : List (BitVec 32) := (s.r2s ++ s.s2r).map Entry.handle

/-- A handle is never in two entries at once (20_memory.md R95, 45_queue_bridge.md R297). -/
def HandlesDistinct (s : State) : Prop := s.handles.Nodup

/-- SCRATCH is in its canonical form (20_memory.md R80; log 4). -/
def ScratchCanonical (s : State) : Prop := s.scratch.wf = true

/-- FIFO order without loss or duplication (45_queue_bridge.md R296): what entered queue `q` is what left it followed by
what it holds, in the same order. -/
def QueueLedger (q : QId) (s : State) : Prop :=
  entriesIn q s.history = entriesOut q s.history ++ s.queue q

/-- The history obeys the tunnel's protocol and STREAM_OPEN says whether a stream is open (44_tunnel.md R270, R275). -/
def TunnelLedger (s : State) : Prop := tunnelPhase s.history = some s.streamOpen

end Sys2Proof.Machine
end

