-- ==== Sys2Proof/Certificates/Slice0/Obligations.lean ====
section
/-! DEFINITION. The statements for the provers. Each docstring names the rule of spec/ it formalises, or the log entry
it rests on. -/

namespace Sys2Proof.Machine

/-- The mask of a command's row in spec/opcode_table.json. -/
def rowMask : Opc → CmdWord
  | .rxByte => 0xFFFFFFFFFFFFFE00
  | .dfrReset => 0xFFFFFFFFFFFFFFFF
  | .txMsg => 0xFFFF0000FFFF0000
  | .enq => 0xFFFE000000000000
  | .deq => 0xFFFEFFFFFFFFFFFF
  | .rdState => 0xFFFFFFFFFFFFFFFF
  | .hwReset => 0xFFFFFFFFFFFFFFFF

/-- The match of a command's row in spec/opcode_table.json. -/
def rowMatch : Opc → CmdWord
  | .rxByte => 0x0100000000000000
  | .dfrReset => 0x0200000000000000
  | .txMsg => 0x0300000000000000
  | .enq => 0x0400000000000000
  | .deq => 0x0500000000000000
  | .rdState => 0x0600000000000000
  | .hwReset => 0x0700000000000000

/-- The number OPC of a command (30_encoding.md R119). -/
def opcNumber : Opc → Nat
  | .rxByte => 1
  | .dfrReset => 2
  | .txMsg => 3
  | .enq => 4
  | .deq => 5
  | .rdState => 6
  | .hwReset => 7

/-- The domain of each command, with Q = w[48] (30_encoding.md R124). -/
def inDomain (a : Agent) (w : CmdWord) : Opc → Prop
  | .rxByte => a = .serial
  | .dfrReset => a = .serial
  | .txMsg => a = .serial
  | .enq => (w.getLsbD 48 = true ∧ a = .serial) ∨ (w.getLsbD 48 = false ∧ a = .radio)
  | .deq => (w.getLsbD 48 = false ∧ a = .serial) ∨ (w.getLsbD 48 = true ∧ a = .radio)
  | .rdState => True
  | .hwReset => a = .system

/-- Agent `a` has the next turn and is not held, and its oldest command is `c`; `t` is the state once the turn and the
command are taken. -/
structure TakesCommand (s : State) (a : Agent) (c : Command) (t : State) : Prop where
  turn : s.turns = a :: t.turns
  free : s.heldDeq a = none
  oldest : s.pending a = c :: t.pending a
  rest : t = { s with turns := t.turns }.setPending a (t.pending a)

/-- The number DSTATE has in the status view (10_state.md R31). -/
def dstateNumber : DState → Nat
  | .ai => 0
  | .ah => 1
  | .rp => 2
  | .dp => 3

/-- The number LAST_RESULT has in the status view (10_state.md R43). -/
def lastResultNumber : LastResult → Nat
  | .none => 0
  | .ok => 1
  | .crcBad => 2
  | .badHeader => 3
  | .discardOk => 4
  | .discardBad => 5

/-- `RX b, rdy` at the command port: OPC 0x01, RDY in bit 8, B in bits 7:0 (30_encoding.md R119). -/
def rxCommand (rdy : Bool) (b : Byte) : Command :=
  ⟨BitVec.ofNat 64 (0x01 * 2 ^ 56 + (if rdy then 2 ^ 8 else 0) + b.toNat), []⟩

/-- `TX` at the command port: OPC 0x03, KIND in bits 47:40, VAR in bits 39:32, SIZE = len(P) in bits 15:0, P on the
sideband (30_encoding.md R119, R120). -/
def txCommand (kind var : Byte) (p : List Byte) : Command :=
  ⟨BitVec.ofNat 64 (0x03 * 2 ^ 56 + kind.toNat * 2 ^ 40 + var.toNat * 2 ^ 32 + p.length), p⟩

/-- The commands `cs` are the serial domain's next, the coming turns are its own, one for each, and nothing else is
issued or scheduled. -/
def serialIssues (cs : List Command) (s : State) : State :=
  { s with serialPort := cs, turns := List.replicate cs.length .serial }

end Sys2Proof.Machine

open Sys2Proof Sys2Proof.Machine

/-! ### Encoding -/

/-- For every well-formed instruction, decoding its encoding gives it back, with every operand at every value
(30_encoding.md R119, R120, R127). -/
def Obligations.DecodeInvertsEncode : Prop :=
  ∀ (cfg : Config) (i : Instr), cfg.wf = true → i.wf = true → decode cfg (encode cfg i) = .ok i

/-- Each accepted word has one encoding: what it decodes to encodes to the same word, the sideband included for TX_MSG
and the answer included for PACKET_V2 (30_encoding.md R119, R120, R127; the sideband of another command is unread,
log 11). -/
def Obligations.DecodedWordEncodesBack : Prop :=
  (∀ (cfg : Config) (w : CmdWord) (p : List Byte) (i : Instr), decode cfg (.command w p) = .ok i →
    ∃ p', encode cfg i = .command w p' ∧ (p' = p ∨ (p' = [] ∧ ∀ k v n q, i ≠ .txMsg k v n q))) ∧
  (∀ (cfg : Config) (w : HdrWord) (rdy : Bool) (i : Instr), decode cfg (.header w rdy) = .ok i →
    ∃ r, encode cfg i = .header w r ∧ (r = rdy ∨ ∀ v n q, i ≠ .packetV2 v n q))

/-- Words written out from the tables of the spec decode to the instruction they stand for (30_encoding.md R119,
95_test_vectors.md ENC-1 to ENC-10, VOC-1, VOC-2, VOC-3; the header words with the default KIND_CODE, log 2). -/
def Obligations.SpecWordsDecode : Prop :=
  decode Config.default (.command 0x0100000000000055 []) = .ok (.rxByte 0x55 false) ∧
  decode Config.default (.command 0x01000000000001AA []) = .ok (.rxByte 0xAA true) ∧
  decode Config.default (.command 0x0200000000000000 []) = .ok .dfrReset ∧
  decode Config.default (.command 0x0300000D00000006 [0x12, 0x34, 0x56, 0x78, 0x9A, 0xBC]) =
    .ok (.txMsg 0x00 0x0D 6 [0x12, 0x34, 0x56, 0x78, 0x9A, 0xBC]) ∧
  decode Config.default (.command 0x0401000300000200 []) = .ok (.enq .s2r 3 0x200) ∧
  decode Config.default (.command 0x0500000000000000 []) = .ok (.deq .r2s) ∧
  decode Config.default (.command 0x0600000000000000 []) = .ok .rdState ∧
  decode Config.default (.command 0x0700000000000000 []) = .ok .hwReset ∧
  decode Config.default (.header 0x000D0006 false) = .ok (.deviceInfoV2 0x0D) ∧
  decode Config.default (.header 0x0600000F false) = .ok (.clientConfigV2 0x00 15) ∧
  decode Config.default (.header 0x07010000 true) = .ok (.packetV2 0x01 0 true)

/-- The rows of the wire opcode map are exactly the accepted (kind, length) pairs, whatever the kind codes
(30_encoding.md R127, 40_vocabulary.md R150). -/
def Obligations.HeaderDecodesIffAccepted : Prop :=
  ∀ (cfg : Config) (k v : Byte) (n : BitVec 16) (rdy : Bool),
    (∃ i, decode cfg (.header (headerWord k v n) rdy) = .ok i) ↔ accept cfg k n = true

/-- The vocabulary table: which lengths each kind is accepted with (40_vocabulary.md R150). -/
def Obligations.AcceptedLengthsOfEachKind : Prop :=
  ∀ (cfg : Config) (k : Byte) (n : BitVec 16), cfg.wf = true →
    (accept cfg k n = true ↔
      (k = cfg.kindCode.deviceInfoV2 ∧ n.toNat = 6) ∨
      (k = cfg.kindCode.clientConfigV2 ∧ 10 ≤ n.toNat ∧ n.toNat ≤ 64) ∨
      k = cfg.kindCode.packetV2 ∨
      (k = cfg.kindCode.scanStart ∧ n.toNat = 0) ∨
      (k = cfg.kindCode.scanStop ∧ n.toNat = 0) ∨
      (k = cfg.kindCode.scanApCnt ∧ n.toNat = 0) ∨
      (k = cfg.kindCode.scanApGet ∧ (n.toNat = 0 ∨ n.toNat = 33)))

/-! ### The command port and the step -/

/-- A step runs the decoded instruction: when the command an agent issues is of its domain and decodes to `i`, the step
is exec of `i` in the state with the turn and the command taken (00_scope.md R5; the ports and turns are the model's
own, log 5). -/
def Obligations.StepRunsDecodedInstruction : Prop :=
  ∀ (s t : State) (a : Agent) (c : Command) (o : Opc) (i : Instr),
    TakesCommand s a c t → c.word.toNat / 2 ^ 56 = opcNumber o → inDomain a c.word o →
    decode s.cfg (.command c.word c.sideband) = .ok i → step s = exec i t

/-- Refusals in their order, each leaving only its code in REFUSED, and a command that passes every check is run
(60_exceptions.md R344; 30_encoding.md R120, R122, R124; the refused word is taken from its port, log 9; that a command
other than TX_MSG runs with whatever sideband bytes come with it is the model's choice, log 11). -/
def Obligations.RefusalsInOrder : Prop :=
  ∀ (s t : State) (a : Agent) (c : Command), TakesCommand s a c t →
    ((∀ o, c.word.toNat / 2 ^ 56 ≠ opcNumber o) →
      step s = .next { t with refused := insertOnce .reservedOpcode s.refused }) ∧
    (∀ o, c.word.toNat / 2 ^ 56 = opcNumber o →
      (¬ inDomain a c.word o → step s = .next { t with refused := insertOnce .wrongDomain s.refused }) ∧
      (inDomain a c.word o → c.word &&& rowMask o ≠ rowMatch o →
        step s = .next { t with refused := insertOnce .reservedBits s.refused }) ∧
      (inDomain a c.word o → c.word &&& rowMask o = rowMatch o → o = .txMsg →
        c.sideband.length ≠ c.word.toNat % 2 ^ 16 →
        step s = .next { t with refused := insertOnce .payloadLengthMismatch s.refused }) ∧
      (inDomain a c.word o → c.word &&& rowMask o = rowMatch o →
        (o = .txMsg → c.sideband.length = c.word.toNat % 2 ^ 16) →
        ∃ i, decode s.cfg (.command c.word c.sideband) = .ok i ∧ step s = exec i t))

/-- A domain held in DEQ_EMPTY has no enabled step while its queue is empty, and once the queue has an entry its turn
completes the DEQ (45_queue_bridge.md R295, R294; a hold as a bit and a turn that changes nothing else are the
model's, log 6, log 16). -/
def Obligations.HeldDeqWaitsThenCompletes : Prop :=
  ∀ (s : State) (a : Agent) (q : QId) (ts : List Agent), s.turns = a :: ts → s.heldDeq a = some q →
    (s.queue q = [] → step s = .next { s with turns := ts }) ∧
    (∀ e es, s.queue q = e :: es →
      step s = .next ((({ s with turns := ts }.setQueue q es).setHeld q false).emit (.qDeq q e.len e.handle)))

/-- With no turn, or a turn of an agent that has issued nothing and is not held, the block keeps its state
(60_exceptions.md R354; log 16). -/
def Obligations.IdleBlockKeepsItsState : Prop :=
  ∀ s : State, (s.turns = [] → step s = .next s) ∧
    (∀ a ts, s.turns = a :: ts → s.heldDeq a = none → s.pending a = [] → step s = .next { s with turns := ts })

/-- No instruction stops the block: each answers a next state, in every state, and leaves the parameters, the ports and
the turns alone (60_exceptions.md R340; that ports and turns exist and that an instruction, HW_RESET too, leaves them is the
model's choice, log 5 and log 15). -/
def Obligations.EveryInstructionAnswersNext : Prop :=
  ∀ (i : Instr) (s : State), ∃ t, exec i s = .next t ∧ t.cfg = s.cfg ∧ t.serialPort = s.serialPort ∧
    t.radioPort = s.radioPort ∧ t.systemPort = s.systemPort ∧ t.turns = s.turns

/-! ### CRC-32 and the framer -/

/-- crc32 of the empty sequence is 0, of a longer one the fold of its last byte, and the default's check value
(41_crc32.md R181). -/
def Obligations.CrcOfASequence : Prop :=
  (∀ c : CrcAlgorithm, crc32 c [] = 0) ∧
  (∀ (c : CrcAlgorithm) (s : List Byte) (b : Byte), crc32 c (s ++ [b]) = crcFold c (crc32 c s) b) ∧
  crc32 .isoHdlc [0x31, 0x32, 0x33, 0x34, 0x35, 0x36, 0x37, 0x38, 0x39] = 0xCBF43926

/-- The incremental law (41_crc32.md R182). -/
def Obligations.CrcIsIncremental : Prop :=
  ∀ (c : CrcAlgorithm) (a b : List Byte), crc32 c (a ++ b) = b.foldl (crcFold c) (crc32 c a)

/-- The wire layout of a frame, byte by byte, with PayloadSize and Checksum big-endian (30_encoding.md R110, R112, R113;
42_framer.md R200; 41_crc32.md R183). -/
def Obligations.FrameLayout : Prop :=
  ∀ (c : CrcAlgorithm) (i : Intron) (k v : Byte) (p : List Byte), p.length ≤ 65535 →
    let f := frame c i k v p
    f.length = 16 + p.length ∧
    f.take 8 = intronBytes i ∧
    f.getD 8 0 = k ∧ f.getD 9 0 = v ∧
    (f.getD 10 0).toNat * 256 + (f.getD 11 0).toNat = p.length ∧
    (((f.getD 12 0).toNat * 256 + (f.getD 13 0).toNat) * 256 + (f.getD 14 0).toNat) * 256 + (f.getD 15 0).toNat =
      (crc32 c (f.take 12 ++ p)).toNat ∧
    f.drop 16 = p

/-- TX_MSG: the whole next state for a rejected pair, an accepted kind, and an accepted CLIENTCONFIG_V2, which also
switches the Intron after its bytes (42_framer.md R201, R202, R203). -/
def Obligations.TxMsgResult : Prop :=
  ∀ (s : State) (k v : Byte) (n : BitVec 16) (p : List Byte), p.length = n.toNat →
    (accept s.cfg k n = false →
      exec (.txMsg k v n p) s = .next { s with history := s.history ++ [.txReject k v n] }) ∧
    (accept s.cfg k n = true → k ≠ s.cfg.kindCode.clientConfigV2 →
      exec (.txMsg k v n p) s =
        .next { s with history := s.history ++ [.txBytes (frame s.cfg.crc s.intron k v p)] }) ∧
    (accept s.cfg k n = true → k = s.cfg.kindCode.clientConfigV2 →
      exec (.txMsg k v n p) s =
        .next { s with
          intron := intronOf (p.take 8)
          history := s.history ++
            [.txBytes (frame s.cfg.crc s.intron k v p), .intronSet (intronOf (p.take 8)) .tx] })

/-- A TX_MSG of PACKET_V2 is never rejected, and of a SCAN_START with any payload byte always is (42_framer.md R202's
corner cases). -/
def Obligations.PacketIsNeverRejected : Prop :=
  ∀ (s : State) (v : Byte) (p : List Byte), s.cfg.wf = true → p.length ≤ 65535 →
    (∃ t, exec (.txMsg s.cfg.kindCode.packetV2 v (BitVec.ofNat 16 p.length) p) s = .next t ∧
      serialOutput t.history =
        serialOutput s.history ++ frame s.cfg.crc s.intron s.cfg.kindCode.packetV2 v p ∧
      t.intron = s.intron) ∧
    (p ≠ [] →
      exec (.txMsg s.cfg.kindCode.scanStart v (BitVec.ofNat 16 p.length) p) s =
        .next { s with
          history := s.history ++ [.txReject s.cfg.kindCode.scanStart v (BitVec.ofNat 16 p.length)] })

/-! ### The deframer, byte by byte -/

/-- RX_BYTE in AwaitingIntron: the window and the fill count, and on a match the header state with the checksum seeded
by the Intron; nothing else changes and nothing is emitted (43_deframer.md R221, 41_crc32.md R185). -/
def Obligations.IntronStepResult : Prop :=
  ∀ (s : State) (b : Byte) (rdy : Bool), s.dstate = .ai →
    let w := BitVec.ofNat 64 (s.win.toNat * 256 + b.toNat)
    let f := BitVec.ofNat 4 (min (s.wfill.toNat + 1) 8)
    (f = 8 ∧ w = be64 s.intron →
      exec (.rxByte b rdy) s =
        .next { s with
          win := w, wfill := f, dstate := .ah, hdrCnt := 0, crcAcc := crc32 s.cfg.crc (intronBytes s.intron) }) ∧
    (¬ (f = 8 ∧ w = be64 s.intron) → exec (.rxByte b rdy) s = .next { s with win := w, wfill := f })

/-- RX_BYTE on header bytes 0 to 6: where each byte goes and which are folded (43_deframer.md R222, 30_encoding.md R112,
R113, 41_crc32.md R186). -/
def Obligations.HeaderBytePlacement : Prop :=
  ∀ (s : State) (b : Byte) (rdy : Bool), s.dstate = .ah →
    let c := crcFold s.cfg.crc s.crcAcc b
    (s.hdrCnt = 0 → exec (.rxByte b rdy) s = .next { s with hdrKind := b, crcAcc := c, hdrCnt := 1 }) ∧
    (s.hdrCnt = 1 → exec (.rxByte b rdy) s = .next { s with hdrVar := b, crcAcc := c, hdrCnt := 2 }) ∧
    (s.hdrCnt = 2 →
      exec (.rxByte b rdy) s = .next { s with hdrSize := BitVec.ofNat 16 (b.toNat * 256), crcAcc := c, hdrCnt := 3 }) ∧
    (s.hdrCnt = 3 →
      exec (.rxByte b rdy) s =
        .next { s with hdrSize := BitVec.ofNat 16 (s.hdrSize.toNat ||| b.toNat), crcAcc := c, hdrCnt := 4 }) ∧
    (4 ≤ s.hdrCnt.toNat → s.hdrCnt.toNat ≤ 6 →
      exec (.rxByte b rdy) s =
        .next { s with
          crcRx := BitVec.ofNat 32 (s.crcRx.toNat * 256 + b.toNat)
          hdrCnt := BitVec.ofNat 4 (s.hdrCnt.toNat + 1) })

/-- The RX_BYTE that completes a header runs the wire instruction the header registers decode to, in the state with the
last checksum byte placed; a header that decodes to none is an invalid header (43_deframer.md R223, R224; that the wire
rows are instructions is the model's choice, log 7). -/
def Obligations.LastHeaderByteRunsWireInstruction : Prop :=
  ∀ (s : State) (b : Byte) (rdy : Bool), s.cfg.wf = true → s.dstate = .ah → s.hdrCnt = 7 → s.streamOpen = false →
    let t := { s with crcRx := BitVec.ofNat 32 (s.crcRx.toNat * 256 + b.toNat), hdrCnt := 8 }
    (∀ i, decode s.cfg (.header (headerWord s.hdrKind s.hdrVar s.hdrSize) rdy) = .ok i →
      exec (.rxByte b rdy) s = exec i t) ∧
    (∀ k v n, decode s.cfg (.header (headerWord s.hdrKind s.hdrVar s.hdrSize) rdy) = .error (.invalidHeader k v n) →
      exec (.rxByte b rdy) s =
        .next (softResetColumn
          { s with
            history := s.history ++ [.invalidHeader s.hdrKind s.hdrVar s.hdrSize], lastResult := .badHeader }))

/-- The eight header-and-checksum bytes of an accepted header run its wire instruction, with the four header bytes
folded and the checksum assembled big-endian (43_deframer.md R222, R223; 30_encoding.md R112, R113; log 7). -/
def Obligations.HeaderBytesRunWireInstruction : Prop :=
  ∀ (s : State) (k v : Byte) (n : BitVec 16) (c : BitVec 32) (rdy : Bool) (i : Instr),
    s.cfg.wf = true → s.dstate = .ah → s.hdrCnt = 0 → s.streamOpen = false →
    decode s.cfg (.header (headerWord k v n) rdy) = .ok i →
    process rdy ([k, v] ++ be16 n ++ be32 c) s =
      exec i { s with
        hdrKind := k, hdrVar := v, hdrSize := n, hdrCnt := 8, crcRx := c
        crcAcc := ([k, v] ++ be16 n).foldl (crcFold s.cfg.crc) s.crcAcc }

/-- RDY is read only by the byte that completes an accepted PACKET_V2 header (30_encoding.md R121). -/
def Obligations.RdyReadOnlyAtPacketHeader : Prop :=
  ∀ (s : State) (b : Byte) (r r' : Bool),
    ¬ (s.dstate = .ah ∧ s.hdrCnt = 7 ∧ accept s.cfg s.hdrKind s.hdrSize = true ∧
        s.hdrKind = s.cfg.kindCode.packetV2) →
    exec (.rxByte b r) s = exec (.rxByte b r') s

/-- RX_BYTE in ReceivingPayload of a streamed message: one TUN_UPDATE, the byte folded and counted; the last byte also
commits with the checksum's validity and returns to AwaitingIntron (43_deframer.md R228, R231; 44_tunnel.md R272,
R273). -/
def Obligations.StreamByteResult : Prop :=
  ∀ (s : State) (b : Byte) (rdy : Bool), s.dstate = .rp → s.streamed = true →
    let c := crcFold s.cfg.crc s.crcAcc b
    let valid := decide (c = s.crcRx)
    (s.payCnt + 1 ≠ s.hdrSize →
      exec (.rxByte b rdy) s =
        .next { s with crcAcc := c, payCnt := s.payCnt + 1, history := s.history ++ [.tunUpdate b] }) ∧
    (s.payCnt + 1 = s.hdrSize →
      exec (.rxByte b rdy) s =
        .next (softResetColumn
          { s with
            history := s.history ++ [.tunUpdate b, .tunCommit valid]
            lastResult := if valid then .ok else .crcBad }))

/-- RX_BYTE in ReceivingPayload of a non-streamed message, before its last byte: the byte goes to SCRATCH at PAY_CNT and
every other index keeps its byte; at an index of 64 or more the step only records SCRATCH_OVERFLOW
(43_deframer.md R229, 20_memory.md R82, 60_exceptions.md R343). -/
def Obligations.ScratchByteResult : Prop :=
  ∀ (s : State) (b : Byte) (rdy : Bool), s.dstate = .rp → s.streamed = false → ScratchCanonical s →
    (s.payCnt.toNat < 64 → s.payCnt + 1 ≠ s.hdrSize →
      ∃ m, exec (.rxByte b rdy) s =
          .next { s with crcAcc := crcFold s.cfg.crc s.crcAcc b, payCnt := s.payCnt + 1, scratch := m } ∧
        m.read s.payCnt.toNat = b ∧ (∀ a, a ≠ s.payCnt.toNat → m.read a = s.scratch.read a) ∧ m.wf = true) ∧
    (64 ≤ s.payCnt.toNat →
      exec (.rxByte b rdy) s =
        .next { s with fault := insertOnce (.scratchOverflow s.payCnt.toNat) s.fault })

/-- The last payload byte of a non-streamed message dispatches exactly its payload with the checksum's validity; a valid
CLIENTCONFIG_V2 then sets the Intron to the payload's first 8 bytes; the deframer returns to AwaitingIntron
(43_deframer.md R229, R231, R232, R233). -/
def Obligations.LastScratchByteDispatches : Prop :=
  ∀ (s : State) (b : Byte) (rdy : Bool), s.dstate = .rp → s.streamed = false → s.streamOpen = false →
    ScratchCanonical s → s.payCnt.toNat < 64 → s.payCnt + 1 = s.hdrSize →
    let valid := decide (crcFold s.cfg.crc s.crcAcc b = s.crcRx)
    let payload := memRead s.scratch 0 s.payCnt.toNat ++ [b]
    ∃ m, (∀ a, m.read a = if a = s.payCnt.toNat then b else s.scratch.read a) ∧ m.wf = true ∧
      (¬ (s.hdrKind = s.cfg.kindCode.clientConfigV2 ∧ valid = true) →
        exec (.rxByte b rdy) s =
          .next (softResetColumn
            { s with
              scratch := m
              history := s.history ++ [.dispatch s.hdrKind s.hdrVar payload valid]
              lastResult := if valid then .ok else .crcBad })) ∧
      (s.hdrKind = s.cfg.kindCode.clientConfigV2 → valid = true →
        exec (.rxByte b rdy) s =
          .next (softResetColumn
            { s with
              scratch := m
              intron := intronOf (memRead m 0 8)
              history := s.history ++
                [.dispatch s.hdrKind s.hdrVar payload true, .intronSet (intronOf (memRead m 0 8)) .rx]
              lastResult := .ok }))

/-- RX_BYTE in DiscardingPayload: folded and counted, nothing emitted; the last byte leaves DISCARD_OK or DISCARD_BAD
and returns to AwaitingIntron (43_deframer.md R230, R231). -/
def Obligations.DiscardByteResult : Prop :=
  ∀ (s : State) (b : Byte) (rdy : Bool), s.dstate = .dp → s.streamOpen = false →
    let c := crcFold s.cfg.crc s.crcAcc b
    (s.payCnt + 1 ≠ s.hdrSize → exec (.rxByte b rdy) s = .next { s with crcAcc := c, payCnt := s.payCnt + 1 }) ∧
    (s.payCnt + 1 = s.hdrSize →
      exec (.rxByte b rdy) s =
        .next (softResetColumn { s with lastResult := if c = s.crcRx then .discardOk else .discardBad }))

/-- RX_BYTE adds no fault in a state that meets the invariants (43_deframer.md R220: it "never faults in a reachable
state"; 60_exceptions.md R343's last column), and touches nothing outside the deframer but the history (holds, ports and turns are the model's, log 5 and
log 6). -/
def Obligations.RxByteNeverFaults : Prop :=
  ∀ (mark : Nat) (s : State) (b : Byte) (rdy : Bool), Inv mark s →
    ∃ t, exec (.rxByte b rdy) s = .next t ∧ SameOutsideDeframer s t ∧ s.history <+: t.history

/-- DFR_RESET: TUN_ABANDON if a stream was open, then R48's soft-reset column, and nothing else changes
(43_deframer.md R234, R235; 44_tunnel.md R274). -/
def Obligations.DfrResetResult : Prop :=
  ∀ s : State,
    (s.streamOpen = true →
      exec .dfrReset s = .next (softResetColumn { s with history := s.history ++ [.tunAbandon] })) ∧
    (s.streamOpen = false → exec .dfrReset s = .next (softResetColumn s))

/-! ### The wire rows -/

/-- The rows with a payload for SCRATCH, DEVICE_INFO_V2, CLIENTCONFIG_V2 and the SCAN_AP_GET response: the header
completes into ReceivingPayload, nothing is emitted; a CLIENTCONFIG_V2 of a length outside 10 to 64 is an invalid header
(43_deframer.md R224, R226; 40_vocabulary.md R153, R154, R161). -/
def Obligations.ScratchKindsEnterReceiving : Prop :=
  ∀ (s : State) (v : Byte) (n : BitVec 16), s.cfg.wf = true →
    exec (.deviceInfoV2 v) s =
      .next { s with
        hdrKind := s.cfg.kindCode.deviceInfoV2, hdrVar := v, hdrSize := 6, hdrCnt := 8, payCnt := 0
        dstate := .rp, streamed := false } ∧
    (10 ≤ n.toNat → n.toNat ≤ 64 →
      exec (.clientConfigV2 v n) s =
        .next { s with
          hdrKind := s.cfg.kindCode.clientConfigV2, hdrVar := v, hdrSize := n, hdrCnt := 8, payCnt := 0
          dstate := .rp, streamed := false }) ∧
    (¬ (10 ≤ n.toNat ∧ n.toNat ≤ 64) → s.streamOpen = false →
      exec (.clientConfigV2 v n) s =
        .next (softResetColumn
          { s with
            history := s.history ++ [.invalidHeader s.cfg.kindCode.clientConfigV2 v n], lastResult := .badHeader })) ∧
    exec (.scanApGetRsp v) s =
      .next { s with
        hdrKind := s.cfg.kindCode.scanApGet, hdrVar := v, hdrSize := 33, hdrCnt := 8, payCnt := 0
        dstate := .rp, streamed := false }

/-- The rows without a payload, SCAN_START, SCAN_STOP, SCAN_AP_CNT and the SCAN_AP_GET request: the header completes
into a DISPATCH with an empty payload and the checksum's validity (43_deframer.md R227; 40_vocabulary.md R157 to
R160). -/
def Obligations.EmptyKindsDispatchAtOnce : Prop :=
  ∀ (s : State) (v : Byte), s.cfg.wf = true → s.streamOpen = false →
    let valid := decide (s.crcAcc = s.crcRx)
    let done := fun k : Byte =>
      softResetColumn
        { s with
          history := s.history ++ [.dispatch k v [] valid], lastResult := if valid then .ok else .crcBad }
    exec (.scanStart v) s = .next (done s.cfg.kindCode.scanStart) ∧
    exec (.scanStop v) s = .next (done s.cfg.kindCode.scanStop) ∧
    exec (.scanApCnt v) s = .next (done s.cfg.kindCode.scanApCnt) ∧
    exec (.scanApGetReq v) s = .next (done s.cfg.kindCode.scanApGet)

/-- PACKET_V2 with a payload: TUN_BEGIN with the consumer's answer, then streaming if accepted and discarding if
declined; with a stream already open the step only records STREAM_OVERLAP (43_deframer.md R225; 44_tunnel.md R271,
R275). -/
def Obligations.PacketAsksTheTunnel : Prop :=
  ∀ (s : State) (v : Byte) (n : BitVec 16) (rdy : Bool), s.cfg.wf = true →
    (s.streamOpen = false → n ≠ 0 →
      exec (.packetV2 v n rdy) s =
        .next { s with
          hdrKind := s.cfg.kindCode.packetV2, hdrVar := v, hdrSize := n, hdrCnt := 8, payCnt := 0
          history := s.history ++ [.tunBegin v n rdy]
          streamOpen := rdy, streamed := rdy, dstate := if rdy then .rp else .dp }) ∧
    (s.streamOpen = true →
      exec (.packetV2 v n rdy) s = .next { s with fault := insertOnce .streamOverlap s.fault })

/-- PACKET_V2 without a payload: accepted, it begins and commits in one step; declined, nothing follows TUN_BEGIN but
the discard's LAST_RESULT (43_deframer.md R227; 70_reset_and_hazards.md R388; 60_exceptions.md R346 (1)). -/
def Obligations.EmptyPacketCompletesAtOnce : Prop :=
  ∀ (s : State) (v : Byte), s.cfg.wf = true → s.streamOpen = false →
    let valid := decide (s.crcAcc = s.crcRx)
    exec (.packetV2 v 0 true) s =
      .next (softResetColumn
        { s with
          history := s.history ++ [.tunBegin v 0 true, .tunCommit valid]
          lastResult := if valid then .ok else .crcBad }) ∧
    exec (.packetV2 v 0 false) s =
      .next (softResetColumn
        { s with
          history := s.history ++ [.tunBegin v 0 false]
          lastResult := if valid then .discardOk else .discardBad })

/-! ### Whole messages -/

/-- Chunk-size independence. `process` is one RX_BYTE command per byte, taken from the serial port by a step each; and
bytes issued in two chunks, the second only after the first has been processed, lead to the state and the events of one
`process` call over all of them (43_deframer.md R236, R237). -/
def Obligations.ChunkSizeIndependence : Prop :=
  ∀ (rdy : Bool) (a b : List Byte) (s : State), s.heldSerial = false → s.serialPort = [] → s.turns = [] →
    runSteps (a ++ b).length (serialIssues ((a ++ b).map (rxCommand rdy)) s) = process rdy (a ++ b) s ∧
    andThen (runSteps a.length (serialIssues (a.map (rxCommand rdy)) s))
        (fun t => runSteps b.length (serialIssues (b.map (rxCommand rdy)) t)) =
      process rdy (a ++ b) s

/-- A whole non-streamed message with any transmitted checksum: exactly one DISPATCH with its payload, valid exactly
when the checksum is the message's, and LAST_RESULT to match (43_deframer.md R221 to R232; 41_crc32.md R183, R184). -/
def Obligations.MessageDispatchedWithItsValidity : Prop :=
  ∀ (s : State) (rdy : Bool) (k v : Byte) (p : List Byte) (c : BitVec 32),
    s.cfg.wf = true → FreshIntronSearch s → ScratchCanonical s → p.length ≤ 65535 →
    accept s.cfg k (BitVec.ofNat 16 p.length) = true → k ≠ s.cfg.kindCode.packetV2 →
    k ≠ s.cfg.kindCode.clientConfigV2 →
    let valid := decide (msgCrc s.cfg.crc s.intron k v (BitVec.ofNat 16 p.length) p = c)
    ∃ t, process rdy
          (intronBytes s.intron ++ [k, v] ++ be16 (BitVec.ofNat 16 p.length) ++ be32 c ++ p) s = .next t ∧
      t.history = s.history ++ [.dispatch k v p valid] ∧
      t.lastResult = (if valid then .ok else .crcBad) ∧ t.intron = s.intron ∧
      FreshIntronSearch t ∧ ScratchCanonical t ∧ SameOutsideDeframer s t

/-- The round trip, non-streamed kinds: the frame of an accepted message, after any garbage without an early match,
gives exactly one valid DISPATCH with its payload; a CLIENTCONFIG_V2 then switches the Intron (42_framer.md R205;
43_deframer.md R233). -/
def Obligations.RoundTripDispatch : Prop :=
  ∀ (s : State) (rdy : Bool) (g : List Byte) (k v : Byte) (p : List Byte),
    s.cfg.wf = true → FreshIntronSearch s → ScratchCanonical s → NoEarlyMatch g s.intron → p.length ≤ 65535 →
    accept s.cfg k (BitVec.ofNat 16 p.length) = true → k ≠ s.cfg.kindCode.packetV2 →
    ∃ t, process rdy (g ++ frame s.cfg.crc s.intron k v p) s = .next t ∧
      (k ≠ s.cfg.kindCode.clientConfigV2 →
        t.history = s.history ++ [.dispatch k v p true] ∧ t.intron = s.intron) ∧
      (k = s.cfg.kindCode.clientConfigV2 →
        t.history = s.history ++ [.dispatch k v p true, .intronSet (intronOf p) .rx] ∧ t.intron = intronOf p) ∧
      t.lastResult = .ok ∧ FreshIntronSearch t ∧ ScratchCanonical t ∧ SameOutsideDeframer s t

/-- The round trip, PACKET_V2 accepted: TUN_BEGIN, one TUN_UPDATE per payload byte in order, one TUN_COMMIT(1)
(42_framer.md R205; 44_tunnel.md R277). -/
def Obligations.RoundTripStream : Prop :=
  ∀ (s : State) (g : List Byte) (v : Byte) (p : List Byte),
    s.cfg.wf = true → FreshIntronSearch s → NoEarlyMatch g s.intron → p.length ≤ 65535 →
    ∃ t, process true (g ++ frame s.cfg.crc s.intron s.cfg.kindCode.packetV2 v p) s = .next t ∧
      t.history = s.history ++ [.tunBegin v (BitVec.ofNat 16 p.length) true] ++ p.map .tunUpdate ++ [.tunCommit true] ∧
      t.lastResult = .ok ∧ t.intron = s.intron ∧ t.scratch = s.scratch ∧ FreshIntronSearch t ∧
      SameOutsideDeframer s t

/-- A PACKET_V2 whose begin is declined is counted and folded to its end with no further event, and byte alignment is
kept (43_deframer.md R230; 44_tunnel.md R271). -/
def Obligations.DeclinedStreamIsDiscarded : Prop :=
  ∀ (s : State) (g : List Byte) (v : Byte) (p : List Byte),
    s.cfg.wf = true → FreshIntronSearch s → NoEarlyMatch g s.intron → p.length ≤ 65535 →
    ∃ t, process false (g ++ frame s.cfg.crc s.intron s.cfg.kindCode.packetV2 v p) s = .next t ∧
      t.history = s.history ++ [.tunBegin v (BitVec.ofNat 16 p.length) false] ∧
      t.lastResult = .discardOk ∧ t.intron = s.intron ∧ t.scratch = s.scratch ∧ FreshIntronSearch t ∧
      SameOutsideDeframer s t

/-- Resynchronisation: garbage, a message, garbage, a message give exactly two dispatches when neither garbage makes an
early match (43_deframer.md R238). -/
def Obligations.ResynchronisesAfterGarbage : Prop :=
  ∀ (s : State) (rdy : Bool) (g g' : List Byte) (k v k' v' : Byte) (p p' : List Byte),
    s.cfg.wf = true → FreshIntronSearch s → ScratchCanonical s →
    NoEarlyMatch g s.intron → NoEarlyMatch g' s.intron → p.length ≤ 65535 → p'.length ≤ 65535 →
    accept s.cfg k (BitVec.ofNat 16 p.length) = true → accept s.cfg k' (BitVec.ofNat 16 p'.length) = true →
    k ≠ s.cfg.kindCode.packetV2 → k' ≠ s.cfg.kindCode.packetV2 →
    k ≠ s.cfg.kindCode.clientConfigV2 → k' ≠ s.cfg.kindCode.clientConfigV2 →
    ∃ t, process rdy
          (g ++ frame s.cfg.crc s.intron k v p ++ g' ++ frame s.cfg.crc s.intron k' v' p') s = .next t ∧
      t.history = s.history ++ [.dispatch k v p true, .dispatch k' v' p' true]

/-- What a consumer reads from a CLIENTCONFIG_V2 payload: a payload built from an Intron, an SSID of at most SSID_CAP
bytes and a password gives them back; an SSID beyond SSID_CAP and a password beyond the bytes present, PassLen or PASS_CAP
are cut there; an SSIDLen that leaves no PassLen gives the SSID bytes present, cut at SSID_CAP, and no password; and no
accepted payload's password reaches PASS_CAP's default (40_vocabulary.md R155). -/
def Obligations.ConfigFieldsExtracted : Prop :=
  (∀ (cap : Nat) (i : Intron) (ssid pass : List Byte),
    ssid.length ≤ 32 → 10 + ssid.length + pass.length ≤ 64 → 54 ≤ cap →
    ccFields cap (intronBytes i ++ [BitVec.ofNat 8 ssid.length] ++ ssid ++ [BitVec.ofNat 8 pass.length] ++ pass) =
      (i, ssid, pass)) ∧
  (∀ (cap : Nat) (i : Intron) (ssid rest : List Byte) (passLen : Byte), 10 + ssid.length + rest.length ≤ 64 →
    ccFields cap (intronBytes i ++ [BitVec.ofNat 8 ssid.length] ++ ssid ++ [passLen] ++ rest) =
      (i, ssid.take 32, rest.take (min passLen.toNat cap))) ∧
  (∀ (cap : Nat) (i : Intron) (ssidLen : Byte) (rest : List Byte), 1 ≤ rest.length → 9 + rest.length ≤ 64 →
    rest.length ≤ ssidLen.toNat →
    ccFields cap (intronBytes i ++ [ssidLen] ++ rest) = (i, rest.take 32, [])) ∧
  (∀ (cap : Nat) (p : List Byte), 10 ≤ p.length → p.length ≤ 64 →
    (ccFields cap p).2.1.length ≤ 32 ∧ (ccFields cap p).2.2.length ≤ 54 ∧
    (54 ≤ cap → ccFields cap p = ccFields 54 p))

/-- The command words of every line of assembler: the seven commands of 30_encoding.md R125, then RXS, RXM, LINKUP and
LINKDN of R126, whatever the kind codes; and they decode, in order, to the instructions the line stands for
(30_encoding.md R119, R120, R125, R126; the bytes of an RXM line of more than 65535 payload bytes are the model's choice,
log 21). -/
def Obligations.AssembledLinesDecode : Prop :=
  (∀ (cfg : Config) (b : Byte) (rdy : Bool), (Asm.rx b rdy).assemble cfg = [rxCommand rdy b]) ∧
  (∀ cfg : Config, Asm.drst.assemble cfg = [⟨0x0200000000000000, []⟩] ∧
    Asm.rdst.assemble cfg = [⟨0x0600000000000000, []⟩] ∧ Asm.hrst.assemble cfg = [⟨0x0700000000000000, []⟩] ∧
    (Asm.deq .r2s).assemble cfg = [⟨0x0500000000000000, []⟩] ∧
    (Asm.deq .s2r).assemble cfg = [⟨0x0501000000000000, []⟩]) ∧
  (∀ (cfg : Config) (len : BitVec 16) (h : BitVec 32),
    (Asm.enq .r2s len h).assemble cfg = [⟨BitVec.ofNat 64 (0x04 * 2 ^ 56 + len.toNat * 2 ^ 32 + h.toNat), []⟩] ∧
    (Asm.enq .s2r len h).assemble cfg =
      [⟨BitVec.ofNat 64 (0x04 * 2 ^ 56 + 2 ^ 48 + len.toNat * 2 ^ 32 + h.toNat), []⟩]) ∧
  (∀ (cfg : Config) (k : Kind) (c v : Byte) (p : List Byte), p.length ≤ 65535 →
    (Asm.tx (.name k) v p).assemble cfg = [txCommand (cfg.kindCode.code k) v p] ∧
    (Asm.tx (.byte c) v p).assemble cfg = [txCommand c v p]) ∧
  (∀ (cfg : Config) (bs : List Byte) (rdy : Bool), (Asm.rxs bs rdy).assemble cfg = bs.map (rxCommand rdy)) ∧
  (∀ (cfg : Config) (i : Intron) (k : Kind) (c v : Byte) (p : List Byte) (rdy : Bool),
    (Asm.rxm i (.name k) v p rdy).assemble cfg = (frame cfg.crc i (cfg.kindCode.code k) v p).map (rxCommand rdy) ∧
    (Asm.rxm i (.byte c) v p rdy).assemble cfg = (frame cfg.crc i c v p).map (rxCommand rdy)) ∧
  (∀ cfg : Config, Asm.linkup.assemble cfg = [txCommand cfg.kindCode.packetV2 1 []] ∧
    Asm.linkdn.assemble cfg = [txCommand cfg.kindCode.packetV2 0 []]) ∧
  ∀ (cfg : Config) (a : Asm), (∀ k v p, a = .tx k v p → p.length ≤ 65535) →
    (a.assemble cfg).map (fun c => decodeCommand c.word c.sideband) = (a.expand cfg).map .ok

/-! ### The queue bridge -/

/-- ENQ: appended with Q_ENQ, dropped with Q_DROP on a full queue, or only HANDLE_REUSE recorded when the handle is in
an entry of either queue (45_queue_bridge.md R292, R293, R297; 60_exceptions.md R343). -/
def Obligations.EnqResult : Prop :=
  ∀ (s : State) (q : QId) (l : BitVec 16) (h : BitVec 32),
    (h ∈ s.handles → exec (.enq q l h) s = .next { s with fault := insertOnce (.handleReuse q h) s.fault }) ∧
    (h ∉ s.handles → (s.queue q).length < s.cfg.qcap →
      exec (.enq q l h) s = .next ((s.setQueue q (s.queue q ++ [⟨l, h⟩])).emit (.qEnq q l h))) ∧
    (h ∉ s.handles → s.cfg.qcap ≤ (s.queue q).length →
      exec (.enq q l h) s = .next { s with history := s.history ++ [.qDrop q l h] })

/-- DEQ: the front entry leaves with Q_DEQ; on an empty queue the draining domain is held and nothing else changes
(45_queue_bridge.md R294, R295; the hold is a bit of the model's, log 6). -/
def Obligations.DeqResult : Prop :=
  ∀ s : State,
    (∀ e es, s.r2s = e :: es →
      exec (.deq .r2s) s =
        .next { s with
          r2s := es, heldSerial := false, history := s.history ++ [.qDeq .r2s e.len e.handle] }) ∧
    (∀ e es, s.s2r = e :: es →
      exec (.deq .s2r) s =
        .next { s with
          s2r := es, heldRadio := false, history := s.history ++ [.qDeq .s2r e.len e.handle] }) ∧
    (s.r2s = [] → exec (.deq .r2s) s = .next { s with heldSerial := true }) ∧
    (s.s2r = [] → exec (.deq .s2r) s = .next { s with heldRadio := true })

/-- The two queues share no state. An ENQ or DEQ on one leaves the other, its hold and every register as they were; and it
does not read the other but for the handle check: with the other queue's entries and hold replaced it does the same,
provided HANDLE's membership is the same (45_queue_bridge.md R298). -/
def Obligations.QueuesAreIndependent : Prop :=
  ∀ (s t : State) (p q : QId) (l : BitVec 16) (h : BitVec 32), p ≠ q →
    ((exec (.enq q l h) s = .next t ∨ exec (.deq q) s = .next t) →
      t.queue p = s.queue p ∧ t.held p = s.held p ∧ SameSerialState s t ∧ t.refused = s.refused) ∧
    ∀ (es : List Entry) (b : Bool),
      let other := fun u : State => (u.setQueue p es).setHeld p b
      ((h ∈ s.handles ↔ h ∈ (other s).handles) → exec (.enq q l h) s = .next t →
        exec (.enq q l h) (other s) = .next (other t)) ∧
      (exec (.deq q) s = .next t → exec (.deq q) (other s) = .next (other t))

/-- FIFO order without loss or duplication, kept by every step: what entered a queue is what left it followed by what it
holds (45_queue_bridge.md R296; 20_memory.md R90). -/
def Obligations.StepKeepsFifoOrder : Prop :=
  ∀ (s t : State) (q : QId), QueueLedger q s → step s = .next t → QueueLedger q t

/-- A handle is never in two entries at once, kept by every step (45_queue_bridge.md R297; 20_memory.md R95). -/
def Obligations.StepKeepsHandlesDistinct : Prop :=
  ∀ s t : State, HandlesDistinct s → step s = .next t → HandlesDistinct t

/-! ### Control and reset -/

/-- RD_STATE changes nothing but the history, to which it adds the five status words with every field in its bits
(46_control.md R320, R321), DSTATE and LAST_RESULT by their numbers (10_state.md R31, R43). -/
def Obligations.RdStateView : Prop :=
  ∀ s : State, ∃ w0 w1 w2 w3 w4,
    exec .rdState s = .next { s with history := s.history ++ [.state w0 w1 w2 w3 w4] } ∧
    (w0.extractLsb' 0 2).toNat = dstateNumber s.dstate ∧ w0.extractLsb' 2 4 = s.wfill ∧ w0.extractLsb' 6 4 = s.hdrCnt ∧
    w0.getLsbD 10 = s.streamed ∧ w0.getLsbD 11 = s.streamOpen ∧ (w0.extractLsb' 12 3).toNat = lastResultNumber s.lastResult ∧
    (w0.getLsbD 15 = true ↔ s.fault ≠ []) ∧ w0.extractLsb' 16 8 = s.hdrKind ∧ w0.extractLsb' 24 8 = s.hdrVar ∧
    w0.extractLsb' 32 16 = s.hdrSize ∧ w0.extractLsb' 48 16 = s.payCnt ∧
    w1.extractLsb' 0 32 = s.crcAcc ∧ w1.extractLsb' 32 32 = s.crcRx ∧
    w2 = be64 s.intron ∧ w3 = s.win ∧
    (s.r2s.length ≤ 255 → s.s2r.length ≤ 255 → w4.toNat = s.s2r.length * 256 + s.r2s.length)

/-- HW_RESET: its events in order, every register at R48's hardware-reset column, both queues empty, and everything else
kept (46_control.md R322; 70_reset_and_hazards.md R380; 60_exceptions.md R346 (4); ports, turns and holds, log 15). -/
def Obligations.HwResetResult : Prop :=
  ∀ s : State,
    exec .hwReset s =
      .next { State.reset with
        cfg := s.cfg, intron := s.cfg.defaultIntron, scratch := s.scratch, fault := s.fault, refused := s.refused
        history := s.history ++ (if s.streamOpen then [Event.tunAbandon] else []) ++
          s.r2s.map (fun e => .qFree .r2s e.len e.handle) ++ s.s2r.map (fun e => .qFree .s2r e.len e.handle)
        heldSerial := s.heldSerial, heldRadio := s.heldRadio, serialPort := s.serialPort
        radioPort := s.radioPort, systemPort := s.systemPort, turns := s.turns }

/-- The state after power-on has every register R48 gives a value at that value, and its status view is the one of
R321's example (10_state.md R48; 70_reset_and_hazards.md R381; the default Intron and codes are log 2). -/
def Obligations.PowerOnState : Prop :=
  State.reset.dstate = .ai ∧ State.reset.intron = ⟨0x55, 0x4E, 0x00, 0x01, 0x02, 0x03, 0x04, 0x05⟩ ∧
  State.reset.win = 0 ∧ State.reset.wfill = 0 ∧ State.reset.crcAcc = 0 ∧ State.reset.hdrCnt = 0 ∧
  State.reset.hdrKind = 0 ∧ State.reset.hdrVar = 0 ∧ State.reset.hdrSize = 0 ∧ State.reset.crcRx = 0 ∧
  State.reset.payCnt = 0 ∧ State.reset.streamed = false ∧ State.reset.streamOpen = false ∧
  State.reset.lastResult = .none ∧ State.reset.r2s = [] ∧ State.reset.s2r = [] ∧ State.reset.fault = [] ∧
  State.reset.refused = [] ∧ State.reset.history = [] ∧
  exec .rdState State.reset =
    .next { State.reset with history := [.state 0 0 0x554E000102030405 0 0] }

/-- The state after power-on meets every invariant (10_state.md R47; 20_memory.md R80; 44_tunnel.md R270;
45_queue_bridge.md R296, R297). -/
def Obligations.PowerOnMeetsInvariants : Prop :=
  Inv 0 State.reset ∧ HandlesDistinct State.reset ∧ ScratchCanonical State.reset ∧ TunnelLedger State.reset ∧
    ∀ q, QueueLedger q State.reset

/-! ### Whole-machine rules -/

/-- Every step keeps the invariants of R47; an Intron match sets the mark from which (b) looks for a transmit-side change
of INTRON (10_state.md R47; 43_deframer.md R221; the mark is the model's way to say "since the match", log 20). -/
def Obligations.StepKeepsInvariants : Prop :=
  ∀ (mark : Nat) (s t : State), Inv mark s → step s = .next t → Inv (matchMark mark s t) t

/-- Every step keeps SCRATCH in its canonical form, below index 64 (20_memory.md R80, R96; log 4). -/
def Obligations.StepKeepsScratchCanonical : Prop :=
  ∀ s t : State, ScratchCanonical s → step s = .next t → ScratchCanonical t

/-- Only ScratchByte stores to SCRATCH, one byte at PAY_CNT: every other byte reads as before, whatever the instruction
(20_memory.md R80; 43_deframer.md R229). -/
def Obligations.OnlyPayloadByteStoresToScratch : Prop :=
  ∀ (s t : State) (i : Instr) (a : Nat), ScratchCanonical s → exec i s = .next t →
    ((∃ b rdy, i = .rxByte b rdy) → s.dstate = .rp → s.streamed = false → a ≠ s.payCnt.toNat) →
    t.scratch.read a = s.scratch.read a

/-- The tunnel's protocol is kept by every step: a begin only while no stream is open, updates only within an accepted
stream, and each accepted stream ended by exactly one of commit and abandon (44_tunnel.md R270, R275). -/
def Obligations.StepKeepsTunnelProtocol : Prop :=
  ∀ (mark : Nat) (s t : State), Inv mark s → TunnelLedger s → step s = .next t → TunnelLedger t

/-- FAULT and REFUSED are sticky and the history is append-only, whatever the step (10_state.md R46). -/
def Obligations.RecordsAreNeverCleared : Prop :=
  ∀ s t : State, step s = .next t →
    s.history <+: t.history ∧ (∀ f ∈ s.fault, f ∈ t.fault) ∧ (∀ c ∈ s.refused, c ∈ t.refused) ∧ t.cfg = s.cfg

/-- A faulting step has no other effect than its record (60_exceptions.md R343). -/
def Obligations.FaultingStepOnlyRecords : Prop :=
  ∀ (s t : State) (i : Instr), exec i s = .next t → t.fault ≠ s.fault →
    ∃ f, f ∉ s.fault ∧ t = { s with fault := s.fault ++ [f] }

/-- In a state that meets the invariants the only fault a step can add is HANDLE_REUSE (60_exceptions.md R343, column
"reachable"; 20_memory.md R82; 44_tunnel.md R275). -/
def Obligations.OnlyHandleReuseIsReachable : Prop :=
  ∀ (mark : Nat) (s t : State), Inv mark s → step s = .next t → ∀ f ∈ t.fault, f ∈ s.fault ∨ ∃ q h, f = .handleReuse q h

/-- No step of the radio domain changes a register of the serial domain (60_exceptions.md R351; 10_state.md R30). -/
def Obligations.RadioStepsLeaveSerialState : Prop :=
  ∀ (s t : State) (ts : List Agent), s.turns = .radio :: ts → step s = .next t → SameSerialState s t

/-- INTRON changes only by a configuration message or by HW_RESET: a TX_MSG of an accepted CLIENTCONFIG_V2, to its
payload's first 8 bytes; the last payload byte of a received CLIENTCONFIG_V2 whose checksum is valid, to SCRATCH's first 8
bytes; each with its INTRON_SET; or HW_RESET, to the default (10_state.md R32; 42_framer.md R203; 43_deframer.md R233). -/
def Obligations.IntronChangesOnlyByConfigOrReset : Prop :=
  ∀ (s t : State) (i : Instr), exec i s = .next t → t.intron ≠ s.intron →
    (∃ v n p, i = .txMsg s.cfg.kindCode.clientConfigV2 v n p ∧ accept s.cfg s.cfg.kindCode.clientConfigV2 n = true ∧
      t.intron = intronOf p ∧
      t.history = s.history ++
        [.txBytes (frame s.cfg.crc s.intron s.cfg.kindCode.clientConfigV2 v p), .intronSet t.intron .tx]) ∨
    (∃ b rdy, i = .rxByte b rdy ∧ s.dstate = .rp ∧ s.streamed = false ∧
      s.hdrKind = s.cfg.kindCode.clientConfigV2 ∧ s.payCnt + 1 = s.hdrSize ∧
      crcFold s.cfg.crc s.crcAcc b = s.crcRx ∧ t.intron = intronOf (memRead t.scratch 0 8) ∧
      Event.intronSet t.intron .rx ∈ t.history.drop s.history.length) ∨
    (i = .hwReset ∧ t.intron = s.cfg.defaultIntron)
end

