-- ==== Sys2Proof/Laws/Memory.lean ====
section
/-! SUPPORT. SCRATCH: a read after a write, and the canonical form kept (20_memory.md R80). -/

namespace Sys2Proof.Machine

theorem Memory.read_of_wfFrom_lt {m : Memory} {lo i : Nat} (h : Memory.wfFrom lo m = true) (hi : i < lo) :
    m.read i = scratchUnwritten := by
  induction m generalizing lo with
  | nil => rfl
  | cons c m ih =>
    obtain ⟨a, b⟩ := c
    simp only [Memory.wfFrom, Bool.and_eq_true, decide_eq_true_eq] at h
    have : a ≠ i := by omega
    simp only [Memory.read, if_neg this]
    exact ih h.2 (by omega)

theorem Memory.wfFrom_mono {m : Memory} {lo lo' : Nat} (h : Memory.wfFrom lo m = true) (hl : lo' ≤ lo) :
    Memory.wfFrom lo' m = true := by
  cases m with
  | nil => rfl
  | cons c m =>
    obtain ⟨a, b⟩ := c
    simp only [Memory.wfFrom, Bool.and_eq_true, decide_eq_true_eq] at h ⊢
    exact ⟨⟨⟨by omega, h.1.1.2⟩, h.1.2⟩, h.2⟩

/-- Reading back a written byte gives it; every other index reads as before. -/
theorem Memory.read_write {m : Memory} {lo : Nat} (h : Memory.wfFrom lo m = true) (i j : Nat) (b : Byte) :
    (m.write i b).read j = if i = j then b else m.read j := by
  induction m generalizing lo with
  | nil =>
    by_cases hb : b = scratchUnwritten <;> by_cases hij : i = j <;> simp [Memory.write, Memory.read, hb, hij]
  | cons c m ih =>
    obtain ⟨a, c⟩ := c
    have hw := h
    simp only [Memory.wfFrom, Bool.and_eq_true, decide_eq_true_eq] at h
    have htail : ∀ k, k < a + 1 → Memory.read m k = scratchUnwritten :=
      fun k hk => Memory.read_of_wfFrom_lt h.2 hk
    unfold Memory.write
    split
    · by_cases hij : i = j
      · subst hij
        have h1 : a ≠ i := by omega
        split <;> simp_all [Memory.read, htail i (by omega)]
      · split <;> simp [Memory.read, hij]
    · split
      · rename_i hia
        subst hia
        by_cases hij : i = j
        · subst hij
          split <;> simp_all [Memory.read, htail i (by omega)]
        · split <;> simp [Memory.read, hij]
      · simp only [Memory.read, ih h.2]
        by_cases haj : a = j
        · have : i ≠ j := by omega
          simp [haj, this]
        · simp [haj]

/-- A write below SCRATCH_SIZE keeps the canonical form. -/
theorem Memory.write_wfFrom {m : Memory} {lo i : Nat} (h : Memory.wfFrom lo m = true) (hlo : lo ≤ i)
    (hi : i < Config.scratchSize) (b : Byte) : Memory.wfFrom lo (m.write i b) = true := by
  induction m generalizing lo with
  | nil => unfold Memory.write; split <;> simp_all [Memory.wfFrom]
  | cons c m ih =>
    obtain ⟨a, c⟩ := c
    have hw := h
    simp only [Memory.wfFrom, Bool.and_eq_true, decide_eq_true_eq] at h
    unfold Memory.write
    split
    · split
      · exact hw
      · rename_i hlt hb
        simp only [Memory.wfFrom, Bool.and_eq_true, decide_eq_true_eq]
        exact ⟨⟨⟨hlo, hi⟩, hb⟩, ⟨⟨by omega, h.1.1.2⟩, h.1.2⟩, h.2⟩
    · split
      · rename_i hia
        subst hia
        split
        · exact Memory.wfFrom_mono h.2 (by omega)
        · rename_i hb
          simp only [Memory.wfFrom, Bool.and_eq_true, decide_eq_true_eq]
          exact ⟨⟨⟨hlo, hi⟩, hb⟩, h.2⟩
      · simp only [Memory.wfFrom, Bool.and_eq_true, decide_eq_true_eq]
        exact ⟨h.1, ih h.2 (by omega)⟩

theorem Memory.write_wf {m : Memory} {i : Nat} (h : m.wf = true) (hi : i < Config.scratchSize) (b : Byte) :
    (m.write i b).wf = true := Memory.write_wfFrom h (Nat.zero_le i) hi b

/-- Everything MemWrite can do (20_memory.md R82): below 64 it stores; from 64 up it faults. -/
theorem memWrite_cases (m : Memory) (i : Nat) (b : Byte) :
    (i < Config.scratchSize ∧ memWrite m i b = .ok (m.write i b)) ∨
      (Config.scratchSize ≤ i ∧ memWrite m i b = .error (.scratchOverflow i)) := by
  unfold memWrite
  split
  · exact .inl ⟨‹_›, rfl⟩
  · exact .inr ⟨by omega, rfl⟩

/-- A MemWrite that succeeds keeps the canonical form. -/
theorem memWrite_wf {m m' : Memory} {i : Nat} {b : Byte} (h : memWrite m i b = .ok m') (hm : m.wf = true) :
    m'.wf = true := by
  obtain ⟨hi, hk⟩ | ⟨-, hk⟩ := memWrite_cases m i b <;> rw [hk] at h <;> cases h
  exact Memory.write_wf hm hi b

@[simp] theorem memRead_length (m : Memory) (i n : Nat) : (memRead m i n).length = n := by simp [memRead]

@[simp] theorem memRead_zero (m : Memory) (i : Nat) : memRead m i 0 = [] := rfl

theorem memRead_getElem (m : Memory) (i n k : Nat) (h : k < (memRead m i n).length) :
    (memRead m i n)[k] = m.read (i + k) := by simp [memRead]

/-- Reading one byte more appends it. -/
theorem memRead_succ (m : Memory) (i n : Nat) : memRead m i (n + 1) = memRead m i n ++ [m.read (i + n)] := by
  simp [memRead, List.range_succ]

end Sys2Proof.Machine
end

