-- ==== Sys2Proof/Laws/State.lean ====
section
/-! SUPPORT. One lemma per field of State for each named update, so that no later proof unfolds a record update. -/

namespace Sys2Proof.Machine

/-! ### emit -/

@[simp] theorem State.emit_cfg (s : State) (e : Event) : (s.emit e).cfg = s.cfg := rfl
@[simp] theorem State.emit_dstate (s : State) (e : Event) : (s.emit e).dstate = s.dstate := rfl
@[simp] theorem State.emit_intron (s : State) (e : Event) : (s.emit e).intron = s.intron := rfl
@[simp] theorem State.emit_win (s : State) (e : Event) : (s.emit e).win = s.win := rfl
@[simp] theorem State.emit_wfill (s : State) (e : Event) : (s.emit e).wfill = s.wfill := rfl
@[simp] theorem State.emit_crcAcc (s : State) (e : Event) : (s.emit e).crcAcc = s.crcAcc := rfl
@[simp] theorem State.emit_hdrCnt (s : State) (e : Event) : (s.emit e).hdrCnt = s.hdrCnt := rfl
@[simp] theorem State.emit_hdrKind (s : State) (e : Event) : (s.emit e).hdrKind = s.hdrKind := rfl
@[simp] theorem State.emit_hdrVar (s : State) (e : Event) : (s.emit e).hdrVar = s.hdrVar := rfl
@[simp] theorem State.emit_hdrSize (s : State) (e : Event) : (s.emit e).hdrSize = s.hdrSize := rfl
@[simp] theorem State.emit_crcRx (s : State) (e : Event) : (s.emit e).crcRx = s.crcRx := rfl
@[simp] theorem State.emit_payCnt (s : State) (e : Event) : (s.emit e).payCnt = s.payCnt := rfl
@[simp] theorem State.emit_streamed (s : State) (e : Event) : (s.emit e).streamed = s.streamed := rfl
@[simp] theorem State.emit_streamOpen (s : State) (e : Event) : (s.emit e).streamOpen = s.streamOpen := rfl
@[simp] theorem State.emit_scratch (s : State) (e : Event) : (s.emit e).scratch = s.scratch := rfl
@[simp] theorem State.emit_lastResult (s : State) (e : Event) : (s.emit e).lastResult = s.lastResult := rfl
@[simp] theorem State.emit_r2s (s : State) (e : Event) : (s.emit e).r2s = s.r2s := rfl
@[simp] theorem State.emit_s2r (s : State) (e : Event) : (s.emit e).s2r = s.s2r := rfl
@[simp] theorem State.emit_fault (s : State) (e : Event) : (s.emit e).fault = s.fault := rfl
@[simp] theorem State.emit_refused (s : State) (e : Event) : (s.emit e).refused = s.refused := rfl
@[simp] theorem State.emit_history (s : State) (e : Event) : (s.emit e).history = s.history ++ [e] := rfl
@[simp] theorem State.emit_heldSerial (s : State) (e : Event) : (s.emit e).heldSerial = s.heldSerial := rfl
@[simp] theorem State.emit_heldRadio (s : State) (e : Event) : (s.emit e).heldRadio = s.heldRadio := rfl
@[simp] theorem State.emit_serialPort (s : State) (e : Event) : (s.emit e).serialPort = s.serialPort := rfl
@[simp] theorem State.emit_radioPort (s : State) (e : Event) : (s.emit e).radioPort = s.radioPort := rfl
@[simp] theorem State.emit_systemPort (s : State) (e : Event) : (s.emit e).systemPort = s.systemPort := rfl
@[simp] theorem State.emit_turns (s : State) (e : Event) : (s.emit e).turns = s.turns := rfl

/-! ### emitAll -/

@[simp] theorem State.emitAll_cfg (s : State) (es : List Event) : (s.emitAll es).cfg = s.cfg := rfl
@[simp] theorem State.emitAll_dstate (s : State) (es : List Event) : (s.emitAll es).dstate = s.dstate := rfl
@[simp] theorem State.emitAll_intron (s : State) (es : List Event) : (s.emitAll es).intron = s.intron := rfl
@[simp] theorem State.emitAll_win (s : State) (es : List Event) : (s.emitAll es).win = s.win := rfl
@[simp] theorem State.emitAll_wfill (s : State) (es : List Event) : (s.emitAll es).wfill = s.wfill := rfl
@[simp] theorem State.emitAll_crcAcc (s : State) (es : List Event) : (s.emitAll es).crcAcc = s.crcAcc := rfl
@[simp] theorem State.emitAll_hdrCnt (s : State) (es : List Event) : (s.emitAll es).hdrCnt = s.hdrCnt := rfl
@[simp] theorem State.emitAll_hdrKind (s : State) (es : List Event) : (s.emitAll es).hdrKind = s.hdrKind := rfl
@[simp] theorem State.emitAll_hdrVar (s : State) (es : List Event) : (s.emitAll es).hdrVar = s.hdrVar := rfl
@[simp] theorem State.emitAll_hdrSize (s : State) (es : List Event) : (s.emitAll es).hdrSize = s.hdrSize := rfl
@[simp] theorem State.emitAll_crcRx (s : State) (es : List Event) : (s.emitAll es).crcRx = s.crcRx := rfl
@[simp] theorem State.emitAll_payCnt (s : State) (es : List Event) : (s.emitAll es).payCnt = s.payCnt := rfl
@[simp] theorem State.emitAll_streamed (s : State) (es : List Event) : (s.emitAll es).streamed = s.streamed := rfl
@[simp] theorem State.emitAll_streamOpen (s : State) (es : List Event) : (s.emitAll es).streamOpen = s.streamOpen := rfl
@[simp] theorem State.emitAll_scratch (s : State) (es : List Event) : (s.emitAll es).scratch = s.scratch := rfl
@[simp] theorem State.emitAll_lastResult (s : State) (es : List Event) : (s.emitAll es).lastResult = s.lastResult := rfl
@[simp] theorem State.emitAll_r2s (s : State) (es : List Event) : (s.emitAll es).r2s = s.r2s := rfl
@[simp] theorem State.emitAll_s2r (s : State) (es : List Event) : (s.emitAll es).s2r = s.s2r := rfl
@[simp] theorem State.emitAll_fault (s : State) (es : List Event) : (s.emitAll es).fault = s.fault := rfl
@[simp] theorem State.emitAll_refused (s : State) (es : List Event) : (s.emitAll es).refused = s.refused := rfl
@[simp] theorem State.emitAll_history (s : State) (es : List Event) : (s.emitAll es).history = s.history ++ es := rfl
@[simp] theorem State.emitAll_heldSerial (s : State) (es : List Event) : (s.emitAll es).heldSerial = s.heldSerial := rfl
@[simp] theorem State.emitAll_heldRadio (s : State) (es : List Event) : (s.emitAll es).heldRadio = s.heldRadio := rfl
@[simp] theorem State.emitAll_serialPort (s : State) (es : List Event) : (s.emitAll es).serialPort = s.serialPort := rfl
@[simp] theorem State.emitAll_radioPort (s : State) (es : List Event) : (s.emitAll es).radioPort = s.radioPort := rfl
@[simp] theorem State.emitAll_systemPort (s : State) (es : List Event) : (s.emitAll es).systemPort = s.systemPort := rfl
@[simp] theorem State.emitAll_turns (s : State) (es : List Event) : (s.emitAll es).turns = s.turns := rfl

/-! ### recordFault -/

@[simp] theorem State.recordFault_cfg (s : State) (f : FaultCode) : (s.recordFault f).cfg = s.cfg := rfl
@[simp] theorem State.recordFault_dstate (s : State) (f : FaultCode) : (s.recordFault f).dstate = s.dstate := rfl
@[simp] theorem State.recordFault_intron (s : State) (f : FaultCode) : (s.recordFault f).intron = s.intron := rfl
@[simp] theorem State.recordFault_win (s : State) (f : FaultCode) : (s.recordFault f).win = s.win := rfl
@[simp] theorem State.recordFault_wfill (s : State) (f : FaultCode) : (s.recordFault f).wfill = s.wfill := rfl
@[simp] theorem State.recordFault_crcAcc (s : State) (f : FaultCode) : (s.recordFault f).crcAcc = s.crcAcc := rfl
@[simp] theorem State.recordFault_hdrCnt (s : State) (f : FaultCode) : (s.recordFault f).hdrCnt = s.hdrCnt := rfl
@[simp] theorem State.recordFault_hdrKind (s : State) (f : FaultCode) : (s.recordFault f).hdrKind = s.hdrKind := rfl
@[simp] theorem State.recordFault_hdrVar (s : State) (f : FaultCode) : (s.recordFault f).hdrVar = s.hdrVar := rfl
@[simp] theorem State.recordFault_hdrSize (s : State) (f : FaultCode) : (s.recordFault f).hdrSize = s.hdrSize := rfl
@[simp] theorem State.recordFault_crcRx (s : State) (f : FaultCode) : (s.recordFault f).crcRx = s.crcRx := rfl
@[simp] theorem State.recordFault_payCnt (s : State) (f : FaultCode) : (s.recordFault f).payCnt = s.payCnt := rfl
@[simp] theorem State.recordFault_streamed (s : State) (f : FaultCode) : (s.recordFault f).streamed = s.streamed := rfl
@[simp] theorem State.recordFault_streamOpen (s : State) (f : FaultCode) : (s.recordFault f).streamOpen = s.streamOpen := rfl
@[simp] theorem State.recordFault_scratch (s : State) (f : FaultCode) : (s.recordFault f).scratch = s.scratch := rfl
@[simp] theorem State.recordFault_lastResult (s : State) (f : FaultCode) : (s.recordFault f).lastResult = s.lastResult := rfl
@[simp] theorem State.recordFault_r2s (s : State) (f : FaultCode) : (s.recordFault f).r2s = s.r2s := rfl
@[simp] theorem State.recordFault_s2r (s : State) (f : FaultCode) : (s.recordFault f).s2r = s.s2r := rfl
@[simp] theorem State.recordFault_fault (s : State) (f : FaultCode) : (s.recordFault f).fault = insertOnce f s.fault := rfl
@[simp] theorem State.recordFault_refused (s : State) (f : FaultCode) : (s.recordFault f).refused = s.refused := rfl
@[simp] theorem State.recordFault_history (s : State) (f : FaultCode) : (s.recordFault f).history = s.history := rfl
@[simp] theorem State.recordFault_heldSerial (s : State) (f : FaultCode) : (s.recordFault f).heldSerial = s.heldSerial := rfl
@[simp] theorem State.recordFault_heldRadio (s : State) (f : FaultCode) : (s.recordFault f).heldRadio = s.heldRadio := rfl
@[simp] theorem State.recordFault_serialPort (s : State) (f : FaultCode) : (s.recordFault f).serialPort = s.serialPort := rfl
@[simp] theorem State.recordFault_radioPort (s : State) (f : FaultCode) : (s.recordFault f).radioPort = s.radioPort := rfl
@[simp] theorem State.recordFault_systemPort (s : State) (f : FaultCode) : (s.recordFault f).systemPort = s.systemPort := rfl
@[simp] theorem State.recordFault_turns (s : State) (f : FaultCode) : (s.recordFault f).turns = s.turns := rfl

/-! ### refuse -/

@[simp] theorem State.refuse_cfg (s : State) (c : RefuseCode) : (s.refuse c).cfg = s.cfg := rfl
@[simp] theorem State.refuse_dstate (s : State) (c : RefuseCode) : (s.refuse c).dstate = s.dstate := rfl
@[simp] theorem State.refuse_intron (s : State) (c : RefuseCode) : (s.refuse c).intron = s.intron := rfl
@[simp] theorem State.refuse_win (s : State) (c : RefuseCode) : (s.refuse c).win = s.win := rfl
@[simp] theorem State.refuse_wfill (s : State) (c : RefuseCode) : (s.refuse c).wfill = s.wfill := rfl
@[simp] theorem State.refuse_crcAcc (s : State) (c : RefuseCode) : (s.refuse c).crcAcc = s.crcAcc := rfl
@[simp] theorem State.refuse_hdrCnt (s : State) (c : RefuseCode) : (s.refuse c).hdrCnt = s.hdrCnt := rfl
@[simp] theorem State.refuse_hdrKind (s : State) (c : RefuseCode) : (s.refuse c).hdrKind = s.hdrKind := rfl
@[simp] theorem State.refuse_hdrVar (s : State) (c : RefuseCode) : (s.refuse c).hdrVar = s.hdrVar := rfl
@[simp] theorem State.refuse_hdrSize (s : State) (c : RefuseCode) : (s.refuse c).hdrSize = s.hdrSize := rfl
@[simp] theorem State.refuse_crcRx (s : State) (c : RefuseCode) : (s.refuse c).crcRx = s.crcRx := rfl
@[simp] theorem State.refuse_payCnt (s : State) (c : RefuseCode) : (s.refuse c).payCnt = s.payCnt := rfl
@[simp] theorem State.refuse_streamed (s : State) (c : RefuseCode) : (s.refuse c).streamed = s.streamed := rfl
@[simp] theorem State.refuse_streamOpen (s : State) (c : RefuseCode) : (s.refuse c).streamOpen = s.streamOpen := rfl
@[simp] theorem State.refuse_scratch (s : State) (c : RefuseCode) : (s.refuse c).scratch = s.scratch := rfl
@[simp] theorem State.refuse_lastResult (s : State) (c : RefuseCode) : (s.refuse c).lastResult = s.lastResult := rfl
@[simp] theorem State.refuse_r2s (s : State) (c : RefuseCode) : (s.refuse c).r2s = s.r2s := rfl
@[simp] theorem State.refuse_s2r (s : State) (c : RefuseCode) : (s.refuse c).s2r = s.s2r := rfl
@[simp] theorem State.refuse_fault (s : State) (c : RefuseCode) : (s.refuse c).fault = s.fault := rfl
@[simp] theorem State.refuse_refused (s : State) (c : RefuseCode) : (s.refuse c).refused = insertOnce c s.refused := rfl
@[simp] theorem State.refuse_history (s : State) (c : RefuseCode) : (s.refuse c).history = s.history := rfl
@[simp] theorem State.refuse_heldSerial (s : State) (c : RefuseCode) : (s.refuse c).heldSerial = s.heldSerial := rfl
@[simp] theorem State.refuse_heldRadio (s : State) (c : RefuseCode) : (s.refuse c).heldRadio = s.heldRadio := rfl
@[simp] theorem State.refuse_serialPort (s : State) (c : RefuseCode) : (s.refuse c).serialPort = s.serialPort := rfl
@[simp] theorem State.refuse_radioPort (s : State) (c : RefuseCode) : (s.refuse c).radioPort = s.radioPort := rfl
@[simp] theorem State.refuse_systemPort (s : State) (c : RefuseCode) : (s.refuse c).systemPort = s.systemPort := rfl
@[simp] theorem State.refuse_turns (s : State) (c : RefuseCode) : (s.refuse c).turns = s.turns := rfl

/-! ### setQueue -/

@[simp] theorem State.setQueue_cfg (s : State) (q : QId) (es : List Entry) : (s.setQueue q es).cfg = s.cfg := by cases q <;> rfl
@[simp] theorem State.setQueue_dstate (s : State) (q : QId) (es : List Entry) : (s.setQueue q es).dstate = s.dstate := by cases q <;> rfl
@[simp] theorem State.setQueue_intron (s : State) (q : QId) (es : List Entry) : (s.setQueue q es).intron = s.intron := by cases q <;> rfl
@[simp] theorem State.setQueue_win (s : State) (q : QId) (es : List Entry) : (s.setQueue q es).win = s.win := by cases q <;> rfl
@[simp] theorem State.setQueue_wfill (s : State) (q : QId) (es : List Entry) : (s.setQueue q es).wfill = s.wfill := by cases q <;> rfl
@[simp] theorem State.setQueue_crcAcc (s : State) (q : QId) (es : List Entry) : (s.setQueue q es).crcAcc = s.crcAcc := by cases q <;> rfl
@[simp] theorem State.setQueue_hdrCnt (s : State) (q : QId) (es : List Entry) : (s.setQueue q es).hdrCnt = s.hdrCnt := by cases q <;> rfl
@[simp] theorem State.setQueue_hdrKind (s : State) (q : QId) (es : List Entry) : (s.setQueue q es).hdrKind = s.hdrKind := by cases q <;> rfl
@[simp] theorem State.setQueue_hdrVar (s : State) (q : QId) (es : List Entry) : (s.setQueue q es).hdrVar = s.hdrVar := by cases q <;> rfl
@[simp] theorem State.setQueue_hdrSize (s : State) (q : QId) (es : List Entry) : (s.setQueue q es).hdrSize = s.hdrSize := by cases q <;> rfl
@[simp] theorem State.setQueue_crcRx (s : State) (q : QId) (es : List Entry) : (s.setQueue q es).crcRx = s.crcRx := by cases q <;> rfl
@[simp] theorem State.setQueue_payCnt (s : State) (q : QId) (es : List Entry) : (s.setQueue q es).payCnt = s.payCnt := by cases q <;> rfl
@[simp] theorem State.setQueue_streamed (s : State) (q : QId) (es : List Entry) : (s.setQueue q es).streamed = s.streamed := by cases q <;> rfl
@[simp] theorem State.setQueue_streamOpen (s : State) (q : QId) (es : List Entry) : (s.setQueue q es).streamOpen = s.streamOpen := by cases q <;> rfl
@[simp] theorem State.setQueue_scratch (s : State) (q : QId) (es : List Entry) : (s.setQueue q es).scratch = s.scratch := by cases q <;> rfl
@[simp] theorem State.setQueue_lastResult (s : State) (q : QId) (es : List Entry) : (s.setQueue q es).lastResult = s.lastResult := by cases q <;> rfl
@[simp] theorem State.setQueue_fault (s : State) (q : QId) (es : List Entry) : (s.setQueue q es).fault = s.fault := by cases q <;> rfl
@[simp] theorem State.setQueue_refused (s : State) (q : QId) (es : List Entry) : (s.setQueue q es).refused = s.refused := by cases q <;> rfl
@[simp] theorem State.setQueue_history (s : State) (q : QId) (es : List Entry) : (s.setQueue q es).history = s.history := by cases q <;> rfl
@[simp] theorem State.setQueue_heldSerial (s : State) (q : QId) (es : List Entry) : (s.setQueue q es).heldSerial = s.heldSerial := by cases q <;> rfl
@[simp] theorem State.setQueue_heldRadio (s : State) (q : QId) (es : List Entry) : (s.setQueue q es).heldRadio = s.heldRadio := by cases q <;> rfl
@[simp] theorem State.setQueue_serialPort (s : State) (q : QId) (es : List Entry) : (s.setQueue q es).serialPort = s.serialPort := by cases q <;> rfl
@[simp] theorem State.setQueue_radioPort (s : State) (q : QId) (es : List Entry) : (s.setQueue q es).radioPort = s.radioPort := by cases q <;> rfl
@[simp] theorem State.setQueue_systemPort (s : State) (q : QId) (es : List Entry) : (s.setQueue q es).systemPort = s.systemPort := by cases q <;> rfl
@[simp] theorem State.setQueue_turns (s : State) (q : QId) (es : List Entry) : (s.setQueue q es).turns = s.turns := by cases q <;> rfl
@[simp] theorem State.setQueue_queue (s : State) (q : QId) (es : List Entry) : (s.setQueue q es).queue q = es := by cases q <;> rfl
theorem State.setQueue_other (s : State) {p q : QId} (h : p ≠ q) (es : List Entry) : (s.setQueue q es).queue p = s.queue p := by
  cases p <;> cases q <;> first | rfl | exact absurd rfl h
@[simp] theorem State.setQueue_held (s : State) (p q : QId) (es : List Entry) : (s.setQueue q es).held p = s.held p := by cases p <;> cases q <;> rfl
@[simp] theorem State.emit_queue (s : State) (e : Event) (q : QId) : (s.emit e).queue q = s.queue q := by cases q <;> rfl
@[simp] theorem State.emit_held (s : State) (e : Event) (q : QId) : (s.emit e).held q = s.held q := by cases q <;> rfl

/-! ### setHeld -/

@[simp] theorem State.setHeld_cfg (s : State) (q : QId) (b : Bool) : (s.setHeld q b).cfg = s.cfg := by cases q <;> rfl
@[simp] theorem State.setHeld_dstate (s : State) (q : QId) (b : Bool) : (s.setHeld q b).dstate = s.dstate := by cases q <;> rfl
@[simp] theorem State.setHeld_intron (s : State) (q : QId) (b : Bool) : (s.setHeld q b).intron = s.intron := by cases q <;> rfl
@[simp] theorem State.setHeld_win (s : State) (q : QId) (b : Bool) : (s.setHeld q b).win = s.win := by cases q <;> rfl
@[simp] theorem State.setHeld_wfill (s : State) (q : QId) (b : Bool) : (s.setHeld q b).wfill = s.wfill := by cases q <;> rfl
@[simp] theorem State.setHeld_crcAcc (s : State) (q : QId) (b : Bool) : (s.setHeld q b).crcAcc = s.crcAcc := by cases q <;> rfl
@[simp] theorem State.setHeld_hdrCnt (s : State) (q : QId) (b : Bool) : (s.setHeld q b).hdrCnt = s.hdrCnt := by cases q <;> rfl
@[simp] theorem State.setHeld_hdrKind (s : State) (q : QId) (b : Bool) : (s.setHeld q b).hdrKind = s.hdrKind := by cases q <;> rfl
@[simp] theorem State.setHeld_hdrVar (s : State) (q : QId) (b : Bool) : (s.setHeld q b).hdrVar = s.hdrVar := by cases q <;> rfl
@[simp] theorem State.setHeld_hdrSize (s : State) (q : QId) (b : Bool) : (s.setHeld q b).hdrSize = s.hdrSize := by cases q <;> rfl
@[simp] theorem State.setHeld_crcRx (s : State) (q : QId) (b : Bool) : (s.setHeld q b).crcRx = s.crcRx := by cases q <;> rfl
@[simp] theorem State.setHeld_payCnt (s : State) (q : QId) (b : Bool) : (s.setHeld q b).payCnt = s.payCnt := by cases q <;> rfl
@[simp] theorem State.setHeld_streamed (s : State) (q : QId) (b : Bool) : (s.setHeld q b).streamed = s.streamed := by cases q <;> rfl
@[simp] theorem State.setHeld_streamOpen (s : State) (q : QId) (b : Bool) : (s.setHeld q b).streamOpen = s.streamOpen := by cases q <;> rfl
@[simp] theorem State.setHeld_scratch (s : State) (q : QId) (b : Bool) : (s.setHeld q b).scratch = s.scratch := by cases q <;> rfl
@[simp] theorem State.setHeld_lastResult (s : State) (q : QId) (b : Bool) : (s.setHeld q b).lastResult = s.lastResult := by cases q <;> rfl
@[simp] theorem State.setHeld_r2s (s : State) (q : QId) (b : Bool) : (s.setHeld q b).r2s = s.r2s := by cases q <;> rfl
@[simp] theorem State.setHeld_s2r (s : State) (q : QId) (b : Bool) : (s.setHeld q b).s2r = s.s2r := by cases q <;> rfl
@[simp] theorem State.setHeld_fault (s : State) (q : QId) (b : Bool) : (s.setHeld q b).fault = s.fault := by cases q <;> rfl
@[simp] theorem State.setHeld_refused (s : State) (q : QId) (b : Bool) : (s.setHeld q b).refused = s.refused := by cases q <;> rfl
@[simp] theorem State.setHeld_history (s : State) (q : QId) (b : Bool) : (s.setHeld q b).history = s.history := by cases q <;> rfl
@[simp] theorem State.setHeld_serialPort (s : State) (q : QId) (b : Bool) : (s.setHeld q b).serialPort = s.serialPort := by cases q <;> rfl
@[simp] theorem State.setHeld_radioPort (s : State) (q : QId) (b : Bool) : (s.setHeld q b).radioPort = s.radioPort := by cases q <;> rfl
@[simp] theorem State.setHeld_systemPort (s : State) (q : QId) (b : Bool) : (s.setHeld q b).systemPort = s.systemPort := by cases q <;> rfl
@[simp] theorem State.setHeld_turns (s : State) (q : QId) (b : Bool) : (s.setHeld q b).turns = s.turns := by cases q <;> rfl
@[simp] theorem State.setHeld_held (s : State) (q : QId) (b : Bool) : (s.setHeld q b).held q = b := by cases q <;> rfl
theorem State.setHeld_other (s : State) {p q : QId} (h : p ≠ q) (b : Bool) : (s.setHeld q b).held p = s.held p := by
  cases p <;> cases q <;> first | rfl | exact absurd rfl h
@[simp] theorem State.setHeld_queue (s : State) (p q : QId) (b : Bool) : (s.setHeld q b).queue p = s.queue p := by cases p <;> cases q <;> rfl

/-! ### setPending -/

@[simp] theorem State.setPending_cfg (s : State) (a : Agent) (cs : List Command) : (s.setPending a cs).cfg = s.cfg := by cases a <;> rfl
@[simp] theorem State.setPending_dstate (s : State) (a : Agent) (cs : List Command) : (s.setPending a cs).dstate = s.dstate := by cases a <;> rfl
@[simp] theorem State.setPending_intron (s : State) (a : Agent) (cs : List Command) : (s.setPending a cs).intron = s.intron := by cases a <;> rfl
@[simp] theorem State.setPending_win (s : State) (a : Agent) (cs : List Command) : (s.setPending a cs).win = s.win := by cases a <;> rfl
@[simp] theorem State.setPending_wfill (s : State) (a : Agent) (cs : List Command) : (s.setPending a cs).wfill = s.wfill := by cases a <;> rfl
@[simp] theorem State.setPending_crcAcc (s : State) (a : Agent) (cs : List Command) : (s.setPending a cs).crcAcc = s.crcAcc := by cases a <;> rfl
@[simp] theorem State.setPending_hdrCnt (s : State) (a : Agent) (cs : List Command) : (s.setPending a cs).hdrCnt = s.hdrCnt := by cases a <;> rfl
@[simp] theorem State.setPending_hdrKind (s : State) (a : Agent) (cs : List Command) : (s.setPending a cs).hdrKind = s.hdrKind := by cases a <;> rfl
@[simp] theorem State.setPending_hdrVar (s : State) (a : Agent) (cs : List Command) : (s.setPending a cs).hdrVar = s.hdrVar := by cases a <;> rfl
@[simp] theorem State.setPending_hdrSize (s : State) (a : Agent) (cs : List Command) : (s.setPending a cs).hdrSize = s.hdrSize := by cases a <;> rfl
@[simp] theorem State.setPending_crcRx (s : State) (a : Agent) (cs : List Command) : (s.setPending a cs).crcRx = s.crcRx := by cases a <;> rfl
@[simp] theorem State.setPending_payCnt (s : State) (a : Agent) (cs : List Command) : (s.setPending a cs).payCnt = s.payCnt := by cases a <;> rfl
@[simp] theorem State.setPending_streamed (s : State) (a : Agent) (cs : List Command) : (s.setPending a cs).streamed = s.streamed := by cases a <;> rfl
@[simp] theorem State.setPending_streamOpen (s : State) (a : Agent) (cs : List Command) : (s.setPending a cs).streamOpen = s.streamOpen := by cases a <;> rfl
@[simp] theorem State.setPending_scratch (s : State) (a : Agent) (cs : List Command) : (s.setPending a cs).scratch = s.scratch := by cases a <;> rfl
@[simp] theorem State.setPending_lastResult (s : State) (a : Agent) (cs : List Command) : (s.setPending a cs).lastResult = s.lastResult := by cases a <;> rfl
@[simp] theorem State.setPending_r2s (s : State) (a : Agent) (cs : List Command) : (s.setPending a cs).r2s = s.r2s := by cases a <;> rfl
@[simp] theorem State.setPending_s2r (s : State) (a : Agent) (cs : List Command) : (s.setPending a cs).s2r = s.s2r := by cases a <;> rfl
@[simp] theorem State.setPending_fault (s : State) (a : Agent) (cs : List Command) : (s.setPending a cs).fault = s.fault := by cases a <;> rfl
@[simp] theorem State.setPending_refused (s : State) (a : Agent) (cs : List Command) : (s.setPending a cs).refused = s.refused := by cases a <;> rfl
@[simp] theorem State.setPending_history (s : State) (a : Agent) (cs : List Command) : (s.setPending a cs).history = s.history := by cases a <;> rfl
@[simp] theorem State.setPending_heldSerial (s : State) (a : Agent) (cs : List Command) : (s.setPending a cs).heldSerial = s.heldSerial := by cases a <;> rfl
@[simp] theorem State.setPending_heldRadio (s : State) (a : Agent) (cs : List Command) : (s.setPending a cs).heldRadio = s.heldRadio := by cases a <;> rfl
@[simp] theorem State.setPending_turns (s : State) (a : Agent) (cs : List Command) : (s.setPending a cs).turns = s.turns := by cases a <;> rfl
@[simp] theorem State.setPending_pending (s : State) (a : Agent) (cs : List Command) : (s.setPending a cs).pending a = cs := by cases a <;> rfl
@[simp] theorem State.setPending_queue (s : State) (a : Agent) (cs : List Command) (q : QId) : (s.setPending a cs).queue q = s.queue q := by cases a <;> cases q <;> rfl
@[simp] theorem State.setPending_held (s : State) (a : Agent) (cs : List Command) (q : QId) : (s.setPending a cs).held q = s.held q := by cases a <;> cases q <;> rfl

/-! ### softReset (10_state.md R48's soft-reset column) -/

@[simp] theorem softReset_cfg (s : State) : (softReset s).cfg = s.cfg := by unfold softReset; split <;> simp_all
@[simp] theorem softReset_dstate (s : State) : (softReset s).dstate = .ai := by unfold softReset; split <;> simp_all
@[simp] theorem softReset_intron (s : State) : (softReset s).intron = s.intron := by unfold softReset; split <;> simp_all
@[simp] theorem softReset_win (s : State) : (softReset s).win = 0 := by unfold softReset; split <;> simp_all
@[simp] theorem softReset_wfill (s : State) : (softReset s).wfill = 0 := by unfold softReset; split <;> simp_all
@[simp] theorem softReset_crcAcc (s : State) : (softReset s).crcAcc = 0 := by unfold softReset; split <;> simp_all
@[simp] theorem softReset_hdrCnt (s : State) : (softReset s).hdrCnt = 0 := by unfold softReset; split <;> simp_all
@[simp] theorem softReset_hdrKind (s : State) : (softReset s).hdrKind = 0 := by unfold softReset; split <;> simp_all
@[simp] theorem softReset_hdrVar (s : State) : (softReset s).hdrVar = 0 := by unfold softReset; split <;> simp_all
@[simp] theorem softReset_hdrSize (s : State) : (softReset s).hdrSize = 0 := by unfold softReset; split <;> simp_all
@[simp] theorem softReset_crcRx (s : State) : (softReset s).crcRx = 0 := by unfold softReset; split <;> simp_all
@[simp] theorem softReset_payCnt (s : State) : (softReset s).payCnt = 0 := by unfold softReset; split <;> simp_all
@[simp] theorem softReset_streamed (s : State) : (softReset s).streamed = false := by unfold softReset; split <;> simp_all
@[simp] theorem softReset_streamOpen (s : State) : (softReset s).streamOpen = false := by unfold softReset; split <;> simp_all
@[simp] theorem softReset_scratch (s : State) : (softReset s).scratch = s.scratch := by unfold softReset; split <;> simp_all
@[simp] theorem softReset_lastResult (s : State) : (softReset s).lastResult = s.lastResult := by unfold softReset; split <;> simp_all
@[simp] theorem softReset_r2s (s : State) : (softReset s).r2s = s.r2s := by unfold softReset; split <;> simp_all
@[simp] theorem softReset_s2r (s : State) : (softReset s).s2r = s.s2r := by unfold softReset; split <;> simp_all
@[simp] theorem softReset_fault (s : State) : (softReset s).fault = s.fault := by unfold softReset; split <;> simp_all
@[simp] theorem softReset_refused (s : State) : (softReset s).refused = s.refused := by unfold softReset; split <;> simp_all
@[simp] theorem softReset_history (s : State) : (softReset s).history = if s.streamOpen then s.history ++ [.tunAbandon] else s.history := by unfold softReset; split <;> simp_all
@[simp] theorem softReset_heldSerial (s : State) : (softReset s).heldSerial = s.heldSerial := by unfold softReset; split <;> simp_all
@[simp] theorem softReset_heldRadio (s : State) : (softReset s).heldRadio = s.heldRadio := by unfold softReset; split <;> simp_all
@[simp] theorem softReset_serialPort (s : State) : (softReset s).serialPort = s.serialPort := by unfold softReset; split <;> simp_all
@[simp] theorem softReset_radioPort (s : State) : (softReset s).radioPort = s.radioPort := by unfold softReset; split <;> simp_all
@[simp] theorem softReset_systemPort (s : State) : (softReset s).systemPort = s.systemPort := by unfold softReset; split <;> simp_all
@[simp] theorem softReset_turns (s : State) : (softReset s).turns = s.turns := by unfold softReset; split <;> simp_all

/-! ### foldByte -/

@[simp] theorem foldByte_cfg (s : State) (b : Byte) : (foldByte s b).cfg = s.cfg := rfl
@[simp] theorem foldByte_dstate (s : State) (b : Byte) : (foldByte s b).dstate = s.dstate := rfl
@[simp] theorem foldByte_intron (s : State) (b : Byte) : (foldByte s b).intron = s.intron := rfl
@[simp] theorem foldByte_win (s : State) (b : Byte) : (foldByte s b).win = s.win := rfl
@[simp] theorem foldByte_wfill (s : State) (b : Byte) : (foldByte s b).wfill = s.wfill := rfl
@[simp] theorem foldByte_crcAcc (s : State) (b : Byte) : (foldByte s b).crcAcc = crcFold s.cfg.crc s.crcAcc b := rfl
@[simp] theorem foldByte_hdrCnt (s : State) (b : Byte) : (foldByte s b).hdrCnt = s.hdrCnt := rfl
@[simp] theorem foldByte_hdrKind (s : State) (b : Byte) : (foldByte s b).hdrKind = s.hdrKind := rfl
@[simp] theorem foldByte_hdrVar (s : State) (b : Byte) : (foldByte s b).hdrVar = s.hdrVar := rfl
@[simp] theorem foldByte_hdrSize (s : State) (b : Byte) : (foldByte s b).hdrSize = s.hdrSize := rfl
@[simp] theorem foldByte_crcRx (s : State) (b : Byte) : (foldByte s b).crcRx = s.crcRx := rfl
@[simp] theorem foldByte_payCnt (s : State) (b : Byte) : (foldByte s b).payCnt = s.payCnt := rfl
@[simp] theorem foldByte_streamed (s : State) (b : Byte) : (foldByte s b).streamed = s.streamed := rfl
@[simp] theorem foldByte_streamOpen (s : State) (b : Byte) : (foldByte s b).streamOpen = s.streamOpen := rfl
@[simp] theorem foldByte_scratch (s : State) (b : Byte) : (foldByte s b).scratch = s.scratch := rfl
@[simp] theorem foldByte_lastResult (s : State) (b : Byte) : (foldByte s b).lastResult = s.lastResult := rfl
@[simp] theorem foldByte_r2s (s : State) (b : Byte) : (foldByte s b).r2s = s.r2s := rfl
@[simp] theorem foldByte_s2r (s : State) (b : Byte) : (foldByte s b).s2r = s.s2r := rfl
@[simp] theorem foldByte_fault (s : State) (b : Byte) : (foldByte s b).fault = s.fault := rfl
@[simp] theorem foldByte_refused (s : State) (b : Byte) : (foldByte s b).refused = s.refused := rfl
@[simp] theorem foldByte_history (s : State) (b : Byte) : (foldByte s b).history = s.history := rfl
@[simp] theorem foldByte_heldSerial (s : State) (b : Byte) : (foldByte s b).heldSerial = s.heldSerial := rfl
@[simp] theorem foldByte_heldRadio (s : State) (b : Byte) : (foldByte s b).heldRadio = s.heldRadio := rfl
@[simp] theorem foldByte_serialPort (s : State) (b : Byte) : (foldByte s b).serialPort = s.serialPort := rfl
@[simp] theorem foldByte_radioPort (s : State) (b : Byte) : (foldByte s b).radioPort = s.radioPort := rfl
@[simp] theorem foldByte_systemPort (s : State) (b : Byte) : (foldByte s b).systemPort = s.systemPort := rfl
@[simp] theorem foldByte_turns (s : State) (b : Byte) : (foldByte s b).turns = s.turns := rfl

/-! ### crcSeed -/

@[simp] theorem crcSeed_cfg (s : State) : (crcSeed s).cfg = s.cfg := rfl
@[simp] theorem crcSeed_dstate (s : State) : (crcSeed s).dstate = s.dstate := rfl
@[simp] theorem crcSeed_intron (s : State) : (crcSeed s).intron = s.intron := rfl
@[simp] theorem crcSeed_win (s : State) : (crcSeed s).win = s.win := rfl
@[simp] theorem crcSeed_wfill (s : State) : (crcSeed s).wfill = s.wfill := rfl
@[simp] theorem crcSeed_crcAcc (s : State) : (crcSeed s).crcAcc = crc32 s.cfg.crc (intronBytes s.intron) := rfl
@[simp] theorem crcSeed_hdrCnt (s : State) : (crcSeed s).hdrCnt = s.hdrCnt := rfl
@[simp] theorem crcSeed_hdrKind (s : State) : (crcSeed s).hdrKind = s.hdrKind := rfl
@[simp] theorem crcSeed_hdrVar (s : State) : (crcSeed s).hdrVar = s.hdrVar := rfl
@[simp] theorem crcSeed_hdrSize (s : State) : (crcSeed s).hdrSize = s.hdrSize := rfl
@[simp] theorem crcSeed_crcRx (s : State) : (crcSeed s).crcRx = s.crcRx := rfl
@[simp] theorem crcSeed_payCnt (s : State) : (crcSeed s).payCnt = s.payCnt := rfl
@[simp] theorem crcSeed_streamed (s : State) : (crcSeed s).streamed = s.streamed := rfl
@[simp] theorem crcSeed_streamOpen (s : State) : (crcSeed s).streamOpen = s.streamOpen := rfl
@[simp] theorem crcSeed_scratch (s : State) : (crcSeed s).scratch = s.scratch := rfl
@[simp] theorem crcSeed_lastResult (s : State) : (crcSeed s).lastResult = s.lastResult := rfl
@[simp] theorem crcSeed_r2s (s : State) : (crcSeed s).r2s = s.r2s := rfl
@[simp] theorem crcSeed_s2r (s : State) : (crcSeed s).s2r = s.s2r := rfl
@[simp] theorem crcSeed_fault (s : State) : (crcSeed s).fault = s.fault := rfl
@[simp] theorem crcSeed_refused (s : State) : (crcSeed s).refused = s.refused := rfl
@[simp] theorem crcSeed_history (s : State) : (crcSeed s).history = s.history := rfl
@[simp] theorem crcSeed_heldSerial (s : State) : (crcSeed s).heldSerial = s.heldSerial := rfl
@[simp] theorem crcSeed_heldRadio (s : State) : (crcSeed s).heldRadio = s.heldRadio := rfl
@[simp] theorem crcSeed_serialPort (s : State) : (crcSeed s).serialPort = s.serialPort := rfl
@[simp] theorem crcSeed_radioPort (s : State) : (crcSeed s).radioPort = s.radioPort := rfl
@[simp] theorem crcSeed_systemPort (s : State) : (crcSeed s).systemPort = s.systemPort := rfl
@[simp] theorem crcSeed_turns (s : State) : (crcSeed s).turns = s.turns := rfl

/-! ### resetProcedure (10_state.md R48's hardware-reset column) -/

@[simp] theorem resetProcedure_cfg (s : State) : (resetProcedure s).cfg = s.cfg := rfl
@[simp] theorem resetProcedure_dstate (s : State) : (resetProcedure s).dstate = .ai := rfl
@[simp] theorem resetProcedure_intron (s : State) : (resetProcedure s).intron = s.cfg.defaultIntron := rfl
@[simp] theorem resetProcedure_win (s : State) : (resetProcedure s).win = 0 := rfl
@[simp] theorem resetProcedure_wfill (s : State) : (resetProcedure s).wfill = 0 := rfl
@[simp] theorem resetProcedure_crcAcc (s : State) : (resetProcedure s).crcAcc = 0 := rfl
@[simp] theorem resetProcedure_hdrCnt (s : State) : (resetProcedure s).hdrCnt = 0 := rfl
@[simp] theorem resetProcedure_hdrKind (s : State) : (resetProcedure s).hdrKind = 0 := rfl
@[simp] theorem resetProcedure_hdrVar (s : State) : (resetProcedure s).hdrVar = 0 := rfl
@[simp] theorem resetProcedure_hdrSize (s : State) : (resetProcedure s).hdrSize = 0 := rfl
@[simp] theorem resetProcedure_crcRx (s : State) : (resetProcedure s).crcRx = 0 := rfl
@[simp] theorem resetProcedure_payCnt (s : State) : (resetProcedure s).payCnt = 0 := rfl
@[simp] theorem resetProcedure_streamed (s : State) : (resetProcedure s).streamed = false := rfl
@[simp] theorem resetProcedure_streamOpen (s : State) : (resetProcedure s).streamOpen = false := rfl
@[simp] theorem resetProcedure_scratch (s : State) : (resetProcedure s).scratch = s.scratch := rfl
@[simp] theorem resetProcedure_lastResult (s : State) : (resetProcedure s).lastResult = .none := rfl
@[simp] theorem resetProcedure_r2s (s : State) : (resetProcedure s).r2s = [] := rfl
@[simp] theorem resetProcedure_s2r (s : State) : (resetProcedure s).s2r = [] := rfl
@[simp] theorem resetProcedure_fault (s : State) : (resetProcedure s).fault = s.fault := rfl
@[simp] theorem resetProcedure_refused (s : State) : (resetProcedure s).refused = s.refused := rfl
@[simp] theorem resetProcedure_history (s : State) : (resetProcedure s).history = s.history ++ resetEvents s := rfl
@[simp] theorem resetProcedure_heldSerial (s : State) : (resetProcedure s).heldSerial = s.heldSerial := rfl
@[simp] theorem resetProcedure_heldRadio (s : State) : (resetProcedure s).heldRadio = s.heldRadio := rfl
@[simp] theorem resetProcedure_serialPort (s : State) : (resetProcedure s).serialPort = s.serialPort := rfl
@[simp] theorem resetProcedure_radioPort (s : State) : (resetProcedure s).radioPort = s.radioPort := rfl
@[simp] theorem resetProcedure_systemPort (s : State) : (resetProcedure s).systemPort = s.systemPort := rfl
@[simp] theorem resetProcedure_turns (s : State) : (resetProcedure s).turns = s.turns := rfl

end Sys2Proof.Machine
end

