-- ==== Sys2Proof/Laws/Ops.lean ====
section
/-! SUPPORT. For each shared operation, once, everything it can do; later proofs cite these and do not unfold it. -/

namespace Sys2Proof.Machine

/-- A step's end: the pseudocode's state, or the state before it with one fault recorded. -/
theorem finish_cases (s : State) (r : Except FaultCode State) :
    (∃ t, r = .ok t ∧ finish s r = .next t) ∨ (∃ f, r = .error f ∧ finish s r = .next (s.recordFault f)) := by
  cases r with
  | ok t => exact .inl ⟨t, rfl, rfl⟩
  | error f => exact .inr ⟨f, rfl, rfl⟩

@[simp] theorem finish_ok (s t : State) : finish s (.ok t) = .next t := rfl

@[simp] theorem finish_error (s : State) (f : FaultCode) : finish s (.error f) = .next (s.recordFault f) := rfl

theorem mem_insertOnce {α : Type} [DecidableEq α] {x y : α} {xs : List α} :
    y ∈ insertOnce x xs ↔ y ∈ xs ∨ y = x := by
  unfold insertOnce
  split
  · constructor
    · exact .inl
    · rintro (h | rfl) <;> assumption
  · simp

theorem insertOnce_nodup {α : Type} [DecidableEq α] {x : α} {xs : List α} (h : xs.Nodup) :
    (insertOnce x xs).Nodup := by
  unfold insertOnce
  split
  · exact h
  · rename_i hx
    rw [List.nodup_append]
    refine ⟨h, by simp, ?_⟩
    rintro a ha b hb rfl
    simp only [List.mem_singleton] at hb
    exact hx (hb ▸ ha)

/-- SoftReset with no open stream is the clearing alone. -/
theorem softReset_closed {s : State} (h : s.streamOpen = false) :
    softReset s =
      { s with
        dstate := .ai, win := 0, wfill := 0, crcAcc := 0, hdrCnt := 0, hdrKind := 0, hdrVar := 0, hdrSize := 0
        crcRx := 0, payCnt := 0, streamed := false } := by
  simp [softReset, h]

/-- IntronStep: a match seeds the checksum and awaits the header; else only the window moves. -/
theorem intronStep_cases (b : Byte) (s : State) :
    (fillNext s.wfill = 8 ∧ winNext s.win b = be64 s.intron ∧
      intronStep b s =
        { s with
          win := winNext s.win b, wfill := fillNext s.wfill, dstate := .ah, hdrCnt := 0
          crcAcc := crc32 s.cfg.crc (intronBytes s.intron) }) ∨
    (¬ (fillNext s.wfill = 8 ∧ winNext s.win b = be64 s.intron) ∧
      intronStep b s = { s with win := winNext s.win b, wfill := fillNext s.wfill }) := by
  unfold intronStep
  by_cases h : fillNext s.wfill = 8 ∧ winNext s.win b = be64 s.intron
  · exact .inl ⟨h.1, h.2, by simp [h, crcSeed]⟩
  · exact .inr ⟨h, by simp only [if_neg h]⟩

/-- BeginStream: overlap, accepted, or declined. -/
theorem beginStream_cases (rdy : Bool) (s : State) :
    (s.streamOpen = true ∧ beginStream rdy s = .error .streamOverlap) ∨
    (s.streamOpen = false ∧ rdy = true ∧
      beginStream rdy s =
        .ok { s.emit (.tunBegin s.hdrVar s.hdrSize true) with streamOpen := true, streamed := true, dstate := .rp }) ∨
    (s.streamOpen = false ∧ rdy = false ∧
      beginStream rdy s =
        .ok { s.emit (.tunBegin s.hdrVar s.hdrSize false) with streamed := false, dstate := .dp }) := by
  unfold beginStream
  cases h : s.streamOpen <;> cases rdy <;> simp

/-- Deliver: discarded, committed, or dispatched (43_deframer.md R231). -/
theorem deliver_cases (s : State) :
    (s.dstate = .dp ∧ deliver s = { s with lastResult := discardedResult (crcValid s) }) ∨
    (s.dstate ≠ .dp ∧ s.streamed = true ∧
      deliver s =
        { s.emit (.tunCommit (crcValid s)) with streamOpen := false, lastResult := deliveredResult (crcValid s) }) ∨
    (s.dstate ≠ .dp ∧ s.streamed = false ∧
      deliver s = { dispatch (crcValid s) s with lastResult := deliveredResult (crcValid s) }) := by
  unfold deliver
  by_cases h : s.dstate = .dp
  · exact .inl ⟨h, by simp [h]⟩
  · cases hs : s.streamed
    · exact .inr (.inr ⟨h, rfl, by simp [h]⟩)
    · exact .inr (.inl ⟨h, rfl, by simp [h]⟩)

/-- Dispatch: one DISPATCH, and for a valid CLIENTCONFIG_V2 the Intron and its event (43_deframer.md R232, R233). -/
theorem dispatch_cases (valid : Bool) (s : State) :
    let e := Event.dispatch s.hdrKind s.hdrVar (memRead s.scratch 0 s.hdrSize.toNat) valid
    let i := intronOf (memRead s.scratch 0 8)
    (s.hdrKind = s.cfg.kindCode.code .clientConfigV2 ∧ valid = true ∧
      dispatch valid s = { s with history := s.history ++ [e, .intronSet i .rx], intron := i }) ∨
    (¬ (s.hdrKind = s.cfg.kindCode.code .clientConfigV2 ∧ valid = true) ∧ dispatch valid s = s.emit e) := by
  intro e i
  unfold dispatch
  by_cases h : s.hdrKind = s.cfg.kindCode.code .clientConfigV2 ∧ valid = true
  · exact .inl ⟨h.1, h.2, by simp [h, intronUpdate, State.emit, e, i]⟩
  · exact .inr ⟨h, if_neg h⟩

/-- HeaderComplete: rejected, the tunnel asked, or SCRATCH chosen (43_deframer.md R223). -/
theorem headerComplete_cases (rdy : Bool) (s : State) :
    let t := { s with payCnt := 0 }
    (accept s.cfg s.hdrKind s.hdrSize = false ∧ headerComplete rdy s = .ok (completeIfEmpty (badHeader t))) ∨
    (accept s.cfg s.hdrKind s.hdrSize = true ∧ isStreamed s.cfg s.hdrKind = true ∧
      headerComplete rdy s = (beginStream rdy t).map completeIfEmpty) ∨
    (accept s.cfg s.hdrKind s.hdrSize = true ∧ isStreamed s.cfg s.hdrKind = false ∧
      headerComplete rdy s = .ok (completeIfEmpty { t with dstate := .rp, streamed := false })) := by
  intro t
  unfold headerComplete
  cases h : accept s.cfg s.hdrKind s.hdrSize
  · exact .inl ⟨rfl, by simp [t]⟩
  · cases hs : isStreamed s.cfg s.hdrKind
    · exact .inr (.inr ⟨rfl, rfl, by simp [t]⟩)
    · refine .inr (.inl ⟨rfl, rfl, ?_⟩)
      simp only [t]
      cases beginStream rdy { s with payCnt := 0 } <;> rfl

/-- A bad header never leaves a payload to complete. -/
@[simp] theorem completeIfEmpty_badHeader (s : State) : completeIfEmpty (badHeader s) = badHeader s := by
  simp [completeIfEmpty, badHeader]

/-- ENQ: reuse, appended, or dropped (45_queue_bridge.md R292). -/
theorem enqueue_cases (q : QId) (l : BitVec 16) (h : BitVec 32) (s : State) :
    (s.handleInUse h = true ∧ enqueue q l h s = .error (.handleReuse q h)) ∨
    (s.handleInUse h = false ∧ (s.queue q).length < s.cfg.qcap ∧
      enqueue q l h s = .ok ((s.setQueue q (s.queue q ++ [⟨l, h⟩])).emit (.qEnq q l h))) ∨
    (s.handleInUse h = false ∧ s.cfg.qcap ≤ (s.queue q).length ∧ enqueue q l h s = .ok (s.emit (.qDrop q l h))) := by
  unfold enqueue
  cases hh : s.handleInUse h
  · by_cases hl : (s.queue q).length < s.cfg.qcap
    · exact .inr (.inl ⟨rfl, hl, by simp [hl]⟩)
    · exact .inr (.inr ⟨rfl, by omega, by simp [hl]⟩)
  · exact .inl ⟨rfl, by simp⟩

/-- DEQ: held on an empty queue, else the front entry leaves (45_queue_bridge.md R294, R295). -/
theorem execDeq_cases (q : QId) (s : State) :
    (s.queue q = [] ∧ execDeq q s = .next (s.setHeld q true)) ∨
    (∃ e es, s.queue q = e :: es ∧
      execDeq q s = .next (((s.setQueue q es).setHeld q false).emit (.qDeq q e.len e.handle))) := by
  unfold execDeq
  split
  · exact .inl ⟨‹_›, rfl⟩
  · exact .inr ⟨_, _, ‹_›, rfl⟩

/-- The command port: admission in the order of 60_exceptions.md R344. -/
theorem admission_cases (a : Agent) (c : Command) :
    (opcOf c.word = none ∧ admission a c = .error .reservedOpcode) ∨
    (∃ o, opcOf c.word = some o ∧ mayIssue a c.word o = false ∧ admission a c = .error .wrongDomain) ∨
    (∃ o, opcOf c.word = some o ∧ mayIssue a c.word o = true ∧ admission a c = decodeCommand c.word c.sideband) := by
  unfold admission
  cases h : opcOf c.word with
  | none => exact .inl ⟨rfl, rfl⟩
  | some o =>
    cases hm : mayIssue a c.word o
    · exact .inr (.inl ⟨o, rfl, hm, by simp [hm]⟩)
    · exact .inr (.inr ⟨o, rfl, hm, by simp [hm]⟩)

end Sys2Proof.Machine
end

