-- ==== Sys2Proof/Laws/PerInstr.lean ====
section
/-! SUPPORT. The family RowPattern: the encoding of every instruction meets the match and mask of its row of
spec/opcode_table.json (with the default kind codes the table is written for). -/

namespace Sys2Proof.Laws.RowPattern

/-- Match and mask of each row of spec/opcode_table.json. -/
def row : Instr → Nat × Nat
  | .rxByte _ _ => (0x0100000000000000, 0xFFFFFFFFFFFFFE00)
  | .dfrReset => (0x0200000000000000, 0xFFFFFFFFFFFFFFFF)
  | .txMsg _ _ _ _ => (0x0300000000000000, 0xFFFF0000FFFF0000)
  | .enq _ _ _ => (0x0400000000000000, 0xFFFE000000000000)
  | .deq _ => (0x0500000000000000, 0xFFFEFFFFFFFFFFFF)
  | .rdState => (0x0600000000000000, 0xFFFFFFFFFFFFFFFF)
  | .hwReset => (0x0700000000000000, 0xFFFFFFFFFFFFFFFF)
  | .deviceInfoV2 _ => (0x00000006, 0xFF00FFFF)
  | .clientConfigV2 _ _ => (0x06000000, 0xFF000000)
  | .packetV2 _ _ _ => (0x07000000, 0xFF000000)
  | .scanStart _ => (0x08000000, 0xFF00FFFF)
  | .scanStop _ => (0x09000000, 0xFF00FFFF)
  | .scanApCnt _ => (0x0A000000, 0xFF00FFFF)
  | .scanApGetReq _ => (0x0B000000, 0xFF00FFFF)
  | .scanApGetRsp _ => (0x0B000021, 0xFF00FFFF)

/-- The encoded word under the row's mask is the row's match. -/
def Statement (i : Instr) : Prop :=
  match encode Config.default i with
  | .command w _ => w &&& BitVec.ofNat 64 (row i).2 = BitVec.ofNat 64 (row i).1
  | .header w _ => w &&& BitVec.ofNat 32 (row i).2 = BitVec.ofNat 32 (row i).1

theorem rxByte (b : Byte) (rdy : Bool) : Statement (.rxByte b rdy) := by
  show _ &&& _ = _
  apply BitVec.eq_of_getLsbD_eq
  intro j hj
  interval_cases j <;> simp [row, fieldAt]

theorem dfrReset : Statement (.dfrReset) := by
  show _ &&& _ = _
  decide

theorem txMsg (kind var : Byte) (size : BitVec 16) (p : List Byte) : Statement (.txMsg kind var size p) := by
  show _ &&& _ = _
  apply BitVec.eq_of_getLsbD_eq
  intro j hj
  interval_cases j <;> simp [row, fieldAt]

theorem enq (q : QId) (len : BitVec 16) (handle : BitVec 32) : Statement (.enq q len handle) := by
  show _ &&& _ = _
  apply BitVec.eq_of_getLsbD_eq
  intro j hj
  interval_cases j <;> simp [row, fieldAt]

theorem deq (q : QId) : Statement (.deq q) := by
  show _ &&& _ = _
  cases q <;> decide

theorem rdState : Statement (.rdState) := by
  show _ &&& _ = _
  decide

theorem hwReset : Statement (.hwReset) := by
  show _ &&& _ = _
  decide

theorem deviceInfoV2 (var : Byte) : Statement (.deviceInfoV2 var) := by
  show _ &&& _ = _
  apply BitVec.eq_of_getLsbD_eq
  intro j hj
  interval_cases j <;> simp [row, headerWord, Config.default]

theorem clientConfigV2 (var : Byte) (size : BitVec 16) : Statement (.clientConfigV2 var size) := by
  show _ &&& _ = _
  apply BitVec.eq_of_getLsbD_eq
  intro j hj
  interval_cases j <;> simp [row, headerWord, Config.default]

theorem packetV2 (var : Byte) (size : BitVec 16) (rdy : Bool) : Statement (.packetV2 var size rdy) := by
  show _ &&& _ = _
  apply BitVec.eq_of_getLsbD_eq
  intro j hj
  interval_cases j <;> simp [row, headerWord, Config.default]

theorem scanStart (var : Byte) : Statement (.scanStart var) := by
  show _ &&& _ = _
  apply BitVec.eq_of_getLsbD_eq
  intro j hj
  interval_cases j <;> simp [row, headerWord, Config.default]

theorem scanStop (var : Byte) : Statement (.scanStop var) := by
  show _ &&& _ = _
  apply BitVec.eq_of_getLsbD_eq
  intro j hj
  interval_cases j <;> simp [row, headerWord, Config.default]

theorem scanApCnt (var : Byte) : Statement (.scanApCnt var) := by
  show _ &&& _ = _
  apply BitVec.eq_of_getLsbD_eq
  intro j hj
  interval_cases j <;> simp [row, headerWord, Config.default]

theorem scanApGetReq (var : Byte) : Statement (.scanApGetReq var) := by
  show _ &&& _ = _
  apply BitVec.eq_of_getLsbD_eq
  intro j hj
  interval_cases j <;> simp [row, headerWord, Config.default]

theorem scanApGetRsp (var : Byte) : Statement (.scanApGetRsp var) := by
  show _ &&& _ = _
  apply BitVec.eq_of_getLsbD_eq
  intro j hj
  interval_cases j <;> simp [row, headerWord, Config.default]

end Sys2Proof.Laws.RowPattern
end

