-- ==== Sys2Proof/Laws/Step.lean ====
section
/-! SUPPORT. Everything one step can do, for the proofs that argue about every step. -/

namespace Sys2Proof.Machine

/-- What a fetch leaves alone: every register, queue, record and hold; it moves only the turns and a port. -/
structure SameButPorts (s t : State) : Prop where
  eq : ∃ sp rp yp ts, t = { s with serialPort := sp, radioPort := rp, systemPort := yp, turns := ts }

theorem SameButPorts.refl (s : State) : SameButPorts s s := ⟨⟨_, _, _, _, rfl⟩⟩

theorem SameButPorts.turns (s : State) (ts : List Agent) : SameButPorts s { s with turns := ts } :=
  ⟨⟨_, _, _, _, rfl⟩⟩

theorem SameButPorts.setPending (s : State) (ts : List Agent) (a : Agent) (cs : List Command) :
    SameButPorts s ({ s with turns := ts }.setPending a cs) := by
  cases a <;> exact ⟨⟨_, _, _, _, rfl⟩⟩

/-- A fetch: nothing to run, a held DEQ that can complete, or the oldest command of the agent whose turn it is. -/
theorem fetch_cases (s : State) :
    (∃ t, SameButPorts s t ∧ fetch s = (t, none)) ∨
    (∃ a ts q, s.turns = a :: ts ∧ drainedBy a = some q ∧ s.held q = true ∧ s.queue q ≠ [] ∧
      fetch s = ({ s with turns := ts }, some (.ok (.deq q)))) ∨
    (∃ a ts c cs, s.turns = a :: ts ∧ s.heldDeq a = none ∧ s.pending a = c :: cs ∧
      fetch s = ({ s with turns := ts }.setPending a cs, some (admission a c))) := by
  unfold fetch
  cases ht : s.turns with
  | nil => exact .inl ⟨s, SameButPorts.refl s, rfl⟩
  | cons a ts =>
    have hd : ({ s with turns := ts } : State).heldDeq a = s.heldDeq a := by
      cases a <;> rfl
    have hp : ({ s with turns := ts } : State).pending a = s.pending a := by cases a <;> rfl
    simp only [fetchFor, hd, hp]
    cases hh : s.heldDeq a with
    | some q =>
      have hq : ({ s with turns := ts } : State).queue q = s.queue q := by cases q <;> rfl
      obtain ⟨hda, hheld⟩ : drainedBy a = some q ∧ s.held q = true := by
        unfold State.heldDeq at hh
        cases hda : drainedBy a with
        | none => simp [hda] at hh
        | some q' =>
          simp only [hda] at hh
          split at hh
          · cases hh; exact ⟨rfl, ‹_›⟩
          · cases hh
      simp only [hq]
      by_cases hqe : s.queue q = []
      · exact .inl ⟨_, SameButPorts.turns s ts, by simp [hqe]⟩
      · exact .inr (.inl ⟨a, ts, q, rfl, hda, hheld, hqe, by simp [hqe]⟩)
    | none =>
      cases hc : s.pending a with
      | nil => exact .inl ⟨_, SameButPorts.turns s ts, rfl⟩
      | cons c cs => exact .inr (.inr ⟨a, ts, c, cs, rfl, hh, hc, rfl⟩)

/-- A step from `s`: nothing but ports and turns moved, a refusal recorded, or an instruction run, each after a fetch
that moved only ports and turns; an instruction that runs was decoded from a command of its agent, or is a held DEQ. -/
theorem step_cases (s : State) :
    ∃ u, SameButPorts s u ∧
      (step s = .next u ∨ (∃ c, step s = .next (u.refuse c)) ∨
        (∃ i, step s = exec i u ∧ ((∃ q, i = .deq q) ∨ ∃ a c, admission a c = .ok i))) := by
  obtain ⟨t, ht, hf⟩ | ⟨a, ts, q, -, -, -, -, hf⟩ | ⟨a, ts, c, cs, -, -, -, hf⟩ := fetch_cases s
  · exact ⟨t, ht, .inl (by simp [step, hf])⟩
  · exact ⟨_, SameButPorts.turns s ts, .inr (.inr ⟨_, by simp [step, hf], .inl ⟨q, rfl⟩⟩)⟩
  · refine ⟨_, SameButPorts.setPending s ts a cs, ?_⟩
    cases had : admission a c with
    | error e => exact .inr (.inl ⟨e, by simp [step, hf, had]⟩)
    | ok i => exact .inr (.inr ⟨i, by simp [step, hf, had], .inr ⟨a, c, had⟩⟩)

/-! ### Several steps -/

@[simp] theorem andThen_next (s : State) (f : State → Outcome) : andThen (.next s) f = f s := rfl

theorem andThen_assoc (o : Outcome) (f g : State → Outcome) :
    andThen (andThen o f) g = andThen o fun s => andThen (f s) g := by
  cases o <;> rfl

@[simp] theorem runSteps_zero (s : State) : runSteps 0 s = .next s := rfl

theorem runSteps_succ (n : Nat) (s : State) : runSteps (n + 1) s = andThen (step s) (runSteps n) := rfl

@[simp] theorem process_nil (rdy : Bool) (s : State) : process rdy [] s = .next s := rfl

theorem process_cons (rdy : Bool) (b : Byte) (bs : List Byte) (s : State) :
    process rdy (b :: bs) s = andThen (exec (.rxByte b rdy) s) (process rdy bs) := rfl

end Sys2Proof.Machine
end

