-- ==== Sys2Proof/Tests/Slice0.lean ====
section
/-! SUPPORT. The model's own tests: ill-formed terms refused, every row's word written out from the spec's encoding,
single steps against 95_test_vectors.md, and a witness for the hypotheses of every obligation. -/

namespace Sys2Proof.Tests

open Sys2Proof Sys2Proof.Machine

/-! ### Helpers -/

/-- The next state of an outcome. -/
def nextOf : Outcome → Option State
  | .next s => some s
  | .fault _ => none
  | .refused _ => none

/-- The events an instruction adds in a state whose history is empty. -/
def eventsOf (o : Outcome) : Option (List Event) := (nextOf o).map State.history

/-- The five status words after an outcome. -/
def statsOf (o : Outcome) : Option (List (BitVec 64)) :=
  (nextOf o).map fun s => [stat0 s, stat1 s, stat2 s, stat3 s, stat4 s]

/-- The address of EX-1. -/
def address : List Byte := [0x12, 0x34, 0x56, 0x78, 0x9A, 0xBC]

/-- The default Intron, I0. -/
def i0 : Intron := Config.default.defaultIntron

/-- The Intron the configuration vectors switch to. -/
def newIntron : Intron := ⟨0xAA, 0xBB, 0xCC, 0xDD, 0xEE, 0xFF, 0x11, 0x22⟩

/-- The payload of VOC-2. -/
def configPayload : List Byte := [0xAA, 0xBB, 0xCC, 0xDD, 0xEE, 0xFF, 0x11, 0x22, 2, 0x61, 0x62, 3, 0x78, 0x79, 0x7A]

/-- Right after the Intron I0 (DF-1). -/
def atHeader : State :=
  { State.reset with dstate := .ah, win := 0x554E000102030405, wfill := 8, crcAcc := 0xEDF94206 }

/-- After all header and checksum bytes of a message with these header fields and checksum. -/
def headerRead (k v : Byte) (n : BitVec 16) (crc : BitVec 32) : State :=
  { atHeader with
    hdrKind := k, hdrVar := v, hdrSize := n, hdrCnt := 8, crcRx := crc
    crcAcc := crc32 .isoHdlc (intronBytes i0 ++ [k, v] ++ be16 n) }

/-- In ReceivingPayload or DiscardingPayload of such a message, its payload bytes `p` received. -/
def payloadRead (d : DState) (streamed : Bool) (k v : Byte) (n : BitVec 16) (crc : BitVec 32) (p : List Byte) : State :=
  { headerRead k v n crc with
    dstate := d, streamed := streamed, streamOpen := streamed, payCnt := BitVec.ofNat 16 p.length
    crcAcc := p.foldl (crcFold .isoHdlc) (crc32 .isoHdlc (intronBytes i0 ++ [k, v] ++ be16 n))
    scratch := if streamed then [] else p.zipIdx.foldl (fun m b => m.write b.2 b.1) [] }

/-- EX-1 with one payload byte to come. -/
def addressMessage : State := payloadRead .rp false 0x00 0x0D 6 0xE97E601C [0x12, 0x34, 0x56, 0x78, 0x9A]

/-- VOC-2 with one payload byte to come. -/
def configMessage : State := payloadRead .rp false 0x06 0x00 15 0x9E0E45DB (configPayload.take 14)

/-- VOC-5 accepted, with one payload byte received. -/
def streamMessage : State := payloadRead .rp true 0x07 0x01 3 0x805F8971 [0xAA]

/-- VOC-5 declined, with two payload bytes received. -/
def discardMessage : State := payloadRead .dp false 0x07 0x01 3 0x805F8971 [0xAA, 0xBB]

/-- The entries 0x100, 0x101, … of Q-3. -/
def entries (n : Nat) : List Entry := (List.range n).map fun i => ⟨60, BitVec.ofNat 32 (0x100 + i)⟩

/-- After the twenty ENQs of Q-3. -/
def fullQueue : State := { State.reset with r2s := entries 20 }

/-- One command at an agent's port, with the turn. -/
def issued (s : State) (a : Agent) (w : CmdWord) (p : List Byte := []) : State :=
  { s.setPending a [⟨w, p⟩] with turns := [a] }

/-- That command taken. -/
def taken (s : State) (a : Agent) : State := { s.setPending a [] with turns := [] }

/-! ### Well-formedness -/

theorem test_wf_payload_of_another_length : (Instr.txMsg 0x08 0x00 2 [0x01]).wf = false := by decide

theorem test_wf_payload_missing : (Instr.txMsg 0x08 0x00 1 []).wf = false := by decide

theorem test_wf_config_too_short : (Instr.clientConfigV2 0x00 9).wf = false := by decide

theorem test_wf_config_too_long : (Instr.clientConfigV2 0x00 65).wf = false := by decide

theorem test_wf_config_bounds :
    (Instr.clientConfigV2 0x00 10).wf = true ∧ (Instr.clientConfigV2 0x00 64).wf = true := by decide

/-! ### Decoding: a word of every row, written out from 30_encoding.md R119 and R127 -/

/-- ENC-2: 00000001 | 0..0 | 1 | 10101010. -/
theorem test_decode_rx_byte : decodeTableWord 64 0x01000000000001AA = some (.rxByte 0xAA true) := by decide +kernel

theorem test_decode_dfr_reset : decodeTableWord 64 0x0200000000000000 = some .dfrReset := by decide +kernel

/-- ENC-4. -/
theorem test_decode_tx_msg :
    decode Config.default (.command 0x0300000D00000006 address) = .ok (.txMsg 0x00 0x0D 6 address) := by rfl

/-- ENC-8. -/
theorem test_decode_enq : decodeTableWord 64 0x0401000300000200 = some (.enq .s2r 3 0x200) := by decide +kernel

/-- ENC-9. -/
theorem test_decode_deq :
    decodeTableWord 64 0x0500000000000000 = some (.deq .r2s) ∧
      decodeTableWord 64 0x0501000000000000 = some (.deq .s2r) := by decide +kernel

theorem test_decode_rd_state : decodeTableWord 64 0x0600000000000000 = some .rdState := by decide +kernel

theorem test_decode_hw_reset : decodeTableWord 64 0x0700000000000000 = some .hwReset := by decide +kernel

theorem test_decode_device_info : decodeTableWord 32 0x000D0006 = some (.deviceInfoV2 0x0D) := by decide +kernel

theorem test_decode_client_config :
    decodeTableWord 32 0x0600000F = some (.clientConfigV2 0x00 15) := by decide +kernel

theorem test_decode_packet : decodeTableWord 32 0x07010003 = some (.packetV2 0x01 3 false) := by decide +kernel

theorem test_decode_scan_start : decodeTableWord 32 0x08000000 = some (.scanStart 0x00) := by decide +kernel

theorem test_decode_scan_stop : decodeTableWord 32 0x09000000 = some (.scanStop 0x00) := by decide +kernel

theorem test_decode_scan_ap_cnt : decodeTableWord 32 0x0A030000 = some (.scanApCnt 0x03) := by decide +kernel

theorem test_decode_scan_ap_get_req : decodeTableWord 32 0x0B020000 = some (.scanApGetReq 0x02) := by decide +kernel

theorem test_decode_scan_ap_get_rsp : decodeTableWord 32 0x0B020021 = some (.scanApGetRsp 0x02) := by decide +kernel

/-- REF-1 to REF-4, and EX-2's unknown kinds and wrong lengths. -/
theorem test_decode_reserved :
    decodeTableWord 64 0 = none ∧ decodeTableWord 64 0x0800000000000000 = none ∧
      decodeTableWord 64 0x0100000000000255 = none ∧ decodeTableWord 64 0x0500000000000001 = none ∧
      decodeTableWord 32 0x01000000 = none ∧ decodeTableWord 32 0x00000005 = none ∧
      decodeTableWord 32 0x06000041 = none ∧ decodeTableWord 32 0x0B000020 = none := by decide +kernel

/-! ### Single steps -/

/-- CRC-1 and CRC-6. -/
theorem test_crc :
    crc32 .isoHdlc [0x31, 0x32, 0x33, 0x34, 0x35, 0x36, 0x37, 0x38, 0x39] = 0xCBF43926 ∧
      crc32 .isoHdlc (intronBytes i0) = 0xEDF94206 := by decide +kernel

/-- DF-1, its last byte. -/
theorem test_rx_byte_match :
    statsOf (exec (.rxByte 0x05 false) { State.reset with win := 0xFF554E0001020304, wfill := 8 }) =
      some [0x21, 0x00000000EDF94206, 0x554E000102030405, 0x554E000102030405, 0] := by decide +kernel

/-- DF-4, its last byte. -/
theorem test_rx_byte_dispatch :
    eventsOf (exec (.rxByte 0xBC false) addressMessage) = some [.dispatch 0x00 0x0D address true] ∧
      statsOf (exec (.rxByte 0xBC false) addressMessage) = some [0x1000, 0, 0x554E000102030405, 0, 0] := by
  decide +kernel

/-- DF-13. -/
theorem test_dfr_reset :
    eventsOf (exec .dfrReset streamMessage) = some [.tunAbandon] ∧
      statsOf (exec .dfrReset streamMessage) = some [0, 0, 0x554E000102030405, 0, 0] := by decide +kernel

/-- TX-1. -/
theorem test_tx_msg_bytes :
    eventsOf (exec (.txMsg 0x00 0x0D 6 address) State.reset) =
      some [.txBytes [0x55, 0x4E, 0x00, 0x01, 0x02, 0x03, 0x04, 0x05, 0x00, 0x0D, 0x00, 0x06, 0xE9, 0x7E, 0x60, 0x1C,
        0x12, 0x34, 0x56, 0x78, 0x9A, 0xBC]] := by decide +kernel

/-- TX-6, its first command; the bytes are VOC-2's. -/
theorem test_tx_msg_intron :
    eventsOf (exec (.txMsg 0x06 0x00 15 configPayload) State.reset) =
      some [.txBytes ([0x55, 0x4E, 0x00, 0x01, 0x02, 0x03, 0x04, 0x05, 0x06, 0x00, 0x00, 0x0F, 0x9E, 0x0E, 0x45, 0xDB] ++
        configPayload), .intronSet newIntron .tx] ∧
      (nextOf (exec (.txMsg 0x06 0x00 15 configPayload) State.reset)).map State.intron = some newIntron := by
  decide +kernel

/-- Q-1. -/
theorem test_enq :
    eventsOf (exec (.enq .r2s 60 0x100) State.reset) = some [.qEnq .r2s 60 0x100] ∧
      (statsOf (exec (.enq .r2s 60 0x100) State.reset)).map (fun l => l.getD 4 0) = some 1 := by decide +kernel

/-- Q-3's 21st ENQ, and Q-5's. -/
theorem test_enq_full_and_reuse :
    eventsOf (exec (.enq .r2s 60 0x114) fullQueue) = some [.qDrop .r2s 60 0x114] ∧
      eventsOf (exec (.enq .s2r 1 0x100) fullQueue) = some [] ∧
      (statsOf (exec (.enq .s2r 1 0x100) fullQueue)).map (fun l => l.getD 0 0) = some 0x8000 := by decide +kernel

/-- Q-2. -/
theorem test_deq :
    eventsOf (exec (.deq .r2s) { State.reset with r2s := entries 1 }) = some [.qDeq .r2s 60 0x100] := by decide +kernel

/-- Q-4's DEQ. -/
theorem test_deq_empty :
    nextOf (exec (.deq .s2r) State.reset) = some { State.reset with heldRadio := true } := by decide +kernel

/-- CTL-2. -/
theorem test_rd_state :
    eventsOf (exec .rdState { headerRead 0x00 0x0D 6 0xE97E601C with dstate := .rp }) =
      some [.state 0x000000060D000222 0xE97E601C8D4F2B39 0x554E000102030405 0x554E000102030405 0] := by decide +kernel

/-- CTL-5. -/
theorem test_hw_reset :
    eventsOf (exec .hwReset { streamMessage with r2s := [⟨1, 1⟩, ⟨2, 2⟩], s2r := [⟨3, 3⟩] }) =
      some [.tunAbandon, .qFree .r2s 1 1, .qFree .r2s 2 2, .qFree .s2r 3 3] := by decide +kernel

/-- DF-3. -/
theorem test_device_info :
    statsOf (exec (.deviceInfoV2 0x0D) (headerRead 0x00 0x0D 6 0xE97E601C)) =
      some [0x000000060D000222, 0xE97E601C8D4F2B39, 0x554E000102030405, 0x554E000102030405, 0] := by decide +kernel

/-- VOC-2's header, by R226: RP, not streamed, nothing emitted. -/
theorem test_client_config :
    eventsOf (exec (.clientConfigV2 0x00 15) (headerRead 0x06 0x00 15 0x9E0E45DB)) = some [] ∧
      (statsOf (exec (.clientConfigV2 0x00 15) (headerRead 0x06 0x00 15 0x9E0E45DB))).map (fun l => l.getD 0 0) =
        some 0x0000000F00060222 := by decide +kernel

/-- DF-9 after byte 16. -/
theorem test_packet_accepted :
    eventsOf (exec (.packetV2 0x01 3 true) (headerRead 0x07 0x01 3 0x805F8971)) = some [.tunBegin 1 3 true] ∧
      (statsOf (exec (.packetV2 0x01 3 true) (headerRead 0x07 0x01 3 0x805F8971))).map (fun l => l.take 2) =
        some [0x0000000301070E22, 0x805F897169E81E6B] := by decide +kernel

/-- DF-12. -/
theorem test_packet_declined_empty :
    eventsOf (exec (.packetV2 0x01 0 false) (headerRead 0x07 0x01 0 0xF0E14FD1)) = some [.tunBegin 1 0 false] ∧
      (statsOf (exec (.packetV2 0x01 0 false) (headerRead 0x07 0x01 0 0xF0E14FD1))).map (fun l => l.take 2) =
        some [0x4000, 0] := by decide +kernel

/-- DF-7. -/
theorem test_scan_start :
    eventsOf (exec (.scanStart 0x00) (headerRead 0x08 0x00 0 0xA94035B0)) = some [.dispatch 0x08 0x00 [] true] := by
  decide +kernel

/-- VOC-7's checksum. -/
theorem test_scan_stop :
    eventsOf (exec (.scanStop 0x00) (headerRead 0x09 0x00 0 0x11FC52D5)) = some [.dispatch 0x09 0x00 [] true] := by
  decide +kernel

/-- VOC-8's checksum. -/
theorem test_scan_ap_cnt :
    eventsOf (exec (.scanApCnt 0x03) (headerRead 0x0A 0x03 0 0x010F4362)) = some [.dispatch 0x0A 0x03 [] true] := by
  decide +kernel

/-- VOC-9's checksum, and one bit of it wrong. -/
theorem test_scan_ap_get_req :
    eventsOf (exec (.scanApGetReq 0x02) (headerRead 0x0B 0x02 0 0xB8714E30)) = some [.dispatch 0x0B 0x02 [] true] ∧
      eventsOf (exec (.scanApGetReq 0x02) (headerRead 0x0B 0x02 0 0xB8714E31)) =
        some [.dispatch 0x0B 0x02 [] false] := by decide +kernel

/-- VOC-10's header, by R226. -/
theorem test_scan_ap_get_rsp :
    (statsOf (exec (.scanApGetRsp 0x02) (headerRead 0x0B 0x02 0x21 0xC3958F7F))).map (fun l => l.getD 0 0) =
      some 0x00000021020B0222 := by decide +kernel

/-- VOC-15, its fourth and fifth rows. -/
theorem test_cc_fields :
    ccFields 64 (intronBytes newIntron ++ [0x28] ++ List.replicate 40 0x41 ++ [2, 0x70, 0x77]) =
        (newIntron, List.replicate 32 0x41, [0x70, 0x77]) ∧
      ccFields 64 (intronBytes newIntron ++ [1, 0x61, 0x0A, 0x78, 0x79, 0x7A]) = (newIntron, [0x61], [0x78, 0x79, 0x7A]) := by
  decide +kernel

/-- VOC-10's payload, and VOC-11's frame. -/
theorem test_ap_fields :
    apFields ([0x50, 0x72, 0x75, 0x73, 0x61] ++ List.replicate 27 0 ++ [1]) =
        ([0x50, 0x72, 0x75, 0x73, 0x61] ++ List.replicate 27 0, 1) ∧
      frame .isoHdlc i0 0x0B 0xFF apDefaultPayload =
        [0x55, 0x4E, 0x00, 0x01, 0x02, 0x03, 0x04, 0x05, 0x0B, 0xFF, 0x00, 0x21, 0x7A, 0x56, 0x26, 0xCD] ++
          List.replicate 33 0 := by decide +kernel

/-- A word placed at reset is what the next step runs: a command, a TX_MSG and a header row. -/
theorem test_placed_words_run :
    eventsOf (step (State.reset.withFetchWord 64 0x0600000000000000)) = some [.state 0 0 0x554E000102030405 0 0] ∧
      eventsOf (step (State.reset.withFetchWord 64 0x0401000300000200)) = some [.qEnq .s2r 3 0x200] ∧
      eventsOf (step (State.reset.withFetchWord 64 0x0300080000000001)) = some [.txReject 0x08 0x00 1] ∧
      eventsOf (step (State.reset.withFetchWord 32 0x0A030000)) = some [.dispatch 0x0A 0x03 [] true] ∧
      eventsOf (step (State.reset.withFetchWord 32 0x07010003)) = some [.tunBegin 1 3 false] := by decide +kernel

/-- REF-5, REF-7 and REF-9. -/
theorem test_refusals :
    nextOf (step (issued State.reset .serial 0x0300080000000002 [0x01])) =
        some { State.reset with refused := [.payloadLengthMismatch] } ∧
      nextOf (step (issued State.reset .radio 0x0100000000000000)) = some { State.reset with refused := [.wrongDomain] } ∧
      nextOf (step (issued State.reset .serial 0x0700000000000001)) =
        some { State.reset with refused := [.wrongDomain] } := by decide +kernel

/-- R345: a successful ENQ lifts a hold before the waiting DEQ has completed, and a domain whose queue is empty is held. -/
theorem test_enq_lifts_hold :
    ({ State.reset with heldRadio := true } : State).endedWell = false ∧
      (nextOf (exec (.enq .s2r 5 0x201) { State.reset with heldRadio := true })).map State.endedWell = some true := by
  decide +kernel

/-- ENC-6's word for LINKUP, and the words of an RXS with rdy = 1 (30_encoding.md R126). -/
theorem test_assemble :
    Asm.linkup.assemble Config.default = [⟨0x0300070100000000, []⟩] ∧
      (Asm.rxs [0x13, 0x55] true).assemble Config.default = [⟨0x0100000000000113, []⟩, ⟨0x0100000000000155, []⟩] := by
  decide +kernel

/-! ### Witnesses for the hypotheses of the obligations -/

/-- DecodeInvertsEncode, AcceptedLengthsOfEachKind and every statement over well-formed parameters: a well-formed block
and well-formed instructions at the bounds. -/
theorem witness_wf :
    Config.default.wf = true ∧ (Instr.txMsg 0x00 0x0D 6 address).wf = true ∧ (Instr.txMsg 0x07 0x01 0 []).wf = true ∧
      (Instr.clientConfigV2 0x00 10).wf = true ∧ (Instr.clientConfigV2 0xFF 64).wf = true := by decide +kernel

/-- DecodedWordEncodesBack: words of both encodings that decode. -/
theorem witness_DecodedWordEncodesBack :
    decode Config.default (.command 0x0300070100000000 []) = .ok (.txMsg 0x07 0x01 0 []) ∧
      decode Config.default (.command 0x0600000000000000 [0xFF]) = .ok .rdState ∧
      decode Config.default (.header 0x0701FFFF true) = .ok (.packetV2 0x01 0xFFFF true) ∧
      decode Config.default (.header 0x0B020021 true) = .ok (.scanApGetRsp 0x02) := ⟨rfl, rfl, rfl, rfl⟩

/-- A command at a port with the turn and no hold is taken. -/
theorem takes_issued (s : State) (a : Agent) (w : CmdWord) (p : List Byte) (h : s.heldDeq a = none) :
    TakesCommand (issued s a w p) a ⟨w, p⟩ (taken s a) := by
  cases a
  · exact ⟨rfl, h, rfl, rfl⟩
  · exact ⟨rfl, h, rfl, rfl⟩
  · exact ⟨rfl, h, rfl, rfl⟩

/-- StepRunsDecodedInstruction: an ENQ of each domain and a TX_MSG with a sideband. -/
theorem witness_StepRunsDecodedInstruction :
    (TakesCommand (issued State.reset .radio 0x0400003C00000100) .radio ⟨0x0400003C00000100, []⟩ (taken State.reset .radio) ∧
      (0x0400003C00000100 : CmdWord).toNat / 2 ^ 56 = opcNumber .enq ∧ inDomain .radio 0x0400003C00000100 .enq ∧
      decode Config.default (.command 0x0400003C00000100 []) = .ok (.enq .r2s 60 0x100)) ∧
    (TakesCommand (issued State.reset .serial 0x0401000300000200) .serial ⟨0x0401000300000200, []⟩
        (taken State.reset .serial) ∧
      (0x0401000300000200 : CmdWord).toNat / 2 ^ 56 = opcNumber .enq ∧ inDomain .serial 0x0401000300000200 .enq ∧
      decode Config.default (.command 0x0401000300000200 []) = .ok (.enq .s2r 3 0x200)) ∧
    (TakesCommand (issued State.reset .serial 0x0300080000000001 [0x01]) .serial ⟨0x0300080000000001, [0x01]⟩
        (taken State.reset .serial) ∧
      (0x0300080000000001 : CmdWord).toNat / 2 ^ 56 = opcNumber .txMsg ∧ inDomain .serial 0x0300080000000001 .txMsg ∧
      decode Config.default (.command 0x0300080000000001 [0x01]) = .ok (.txMsg 0x08 0x00 1 [0x01])) := by
  refine ⟨⟨takes_issued _ _ _ _ rfl, rfl, ?_, rfl⟩, ⟨takes_issued _ _ _ _ rfl, rfl, ?_, rfl⟩,
    takes_issued _ _ _ _ rfl, rfl, ?_, rfl⟩
  · exact .inr ⟨by decide, rfl⟩
  · exact .inl ⟨by decide, rfl⟩
  · exact rfl

/-- RefusalsInOrder: a taken word for each clause, the opcodes 0x00, 0x08 and 0xFF among them. -/
theorem witness_RefusalsInOrder :
    ((∀ o, (0 : CmdWord).toNat / 2 ^ 56 ≠ opcNumber o) ∧
      (∀ o, (0x0800000000000000 : CmdWord).toNat / 2 ^ 56 ≠ opcNumber o) ∧
      ∀ o, (0xFF00000000000000 : CmdWord).toNat / 2 ^ 56 ≠ opcNumber o) ∧
    ¬ inDomain .radio 0x0100000000000000 .rxByte ∧
    (inDomain .serial 0x0100000000000255 .rxByte ∧
      (0x0100000000000255 : CmdWord) &&& rowMask .rxByte ≠ rowMatch .rxByte) ∧
    ((0x0300080000000002 : CmdWord) &&& rowMask .txMsg = rowMatch .txMsg ∧
      [(0x01 : Byte)].length ≠ (0x0300080000000002 : CmdWord).toNat % 2 ^ 16) ∧
    ((0x01000000000001FF : CmdWord) &&& rowMask .rxByte = rowMatch .rxByte ∧
      inDomain .serial 0x01000000000001FF .rxByte) := by
  refine ⟨⟨?_, ?_, ?_⟩, by simp [inDomain], ⟨rfl, by decide⟩, ⟨by decide, by decide⟩, by decide, rfl⟩ <;>
    (intro o; cases o <;> decide)

/-- HeldDeqWaitsThenCompletes: each domain held, on an empty queue and on one with an entry. -/
theorem witness_HeldDeqWaitsThenCompletes :
    ({ State.reset with heldSerial := true, turns := [.serial] }).heldDeq .serial = some .r2s ∧
      ({ State.reset with heldRadio := true, turns := [.radio], s2r := entries 1 }).heldDeq .radio = some .s2r := by
  decide +kernel

/-- IdleBlockKeepsItsState: no turn, and a turn of an agent with nothing issued. -/
theorem witness_IdleBlockKeepsItsState :
    State.reset.turns = [] ∧ State.reset.heldDeq .serial = none ∧ State.reset.pending .serial = [] := by decide +kernel

/-- FrameLayout and the round trips: payload lengths up to 65535. -/
theorem witness_longest_payload : (List.replicate 65535 (0 : Byte)).length ≤ 65535 := by
  rw [List.length_replicate]

/-- TxMsgResult: a rejected pair, an accepted kind, an accepted CLIENTCONFIG_V2 at both bounds. -/
theorem witness_TxMsgResult :
    accept State.reset.cfg 0x08 1 = false ∧ accept State.reset.cfg 0x00 6 = true ∧ accept State.reset.cfg 0x06 9 = false ∧
      accept State.reset.cfg 0x06 10 = true ∧ accept State.reset.cfg 0x06 64 = true ∧
      accept State.reset.cfg 0x06 65 = false ∧ address.length = (6 : BitVec 16).toNat := by decide +kernel

/-- IntronStepResult: a state and a byte that match, and the state after reset, which does not. -/
theorem witness_IntronStepResult_states :
    ({ State.reset with win := 0x00554E0001020304, wfill := 7 } : State).dstate = .ai ∧
      fillNext 7 = 8 ∧ winNext 0x00554E0001020304 0x05 = be64 i0 ∧ State.reset.dstate = .ai ∧
      fillNext State.reset.wfill ≠ 8 := by decide +kernel

/-- IntronStepResult: the fill count and window of a match at WFILL 7 and at WFILL 8, and of none. -/
theorem witness_IntronStepResult :
    (BitVec.ofNat 4 (min ((7 : BitVec 4).toNat + 1) 8) = 8 ∧ BitVec.ofNat 4 (min ((8 : BitVec 4).toNat + 1) 8) = 8 ∧
      BitVec.ofNat 64 ((0x00554E0001020304 : BitVec 64).toNat * 256 + (0x05 : Byte).toNat) = be64 i0) ∧
    BitVec.ofNat 4 (min ((6 : BitVec 4).toNat + 1) 8) ≠ 8 ∧ State.reset.dstate = .ai := by decide +kernel

/-- HeaderBytePlacement: each clause, the checksum bytes at both ends of their range. -/
theorem witness_HeaderBytePlacement :
    atHeader.dstate = .ah ∧ atHeader.hdrCnt = 0 ∧ { atHeader with hdrCnt := 3 }.hdrCnt = 3 ∧
      (4 ≤ (4 : BitVec 4).toNat ∧ (6 : BitVec 4).toNat ≤ 6) := by decide +kernel

/-- HeaderBytesRunWireInstruction: all its hypotheses, for an accepted PACKET_V2 header. -/
theorem witness_HeaderBytesRunWireInstruction :
    atHeader.cfg.wf = true ∧ atHeader.dstate = .ah ∧ atHeader.hdrCnt = 0 ∧ atHeader.streamOpen = false ∧
      decode atHeader.cfg (.header (headerWord 0x07 0x01 3) true) = .ok (.packetV2 0x01 3 true) :=
  ⟨by decide +kernel, rfl, rfl, rfl, rfl⟩

/-- The wire-row statements: well-formed parameters, and the stream closed or open, with lengths 0 and not 0. -/
theorem witness_wire_rows :
    (State.reset.cfg.wf = true ∧ State.reset.streamOpen = false ∧ (1 : BitVec 16) ≠ 0) ∧
      streamMessage.cfg.wf = true ∧ streamMessage.streamOpen = true := by decide +kernel

/-- LastHeaderByteRunsWireInstruction: an accepted header and an invalid one. -/
theorem witness_LastHeaderByteRunsWireInstruction :
    { atHeader with hdrCnt := 7 }.cfg.wf = true ∧ { atHeader with hdrCnt := 7 }.streamOpen = false ∧
      { atHeader with hdrCnt := 7 }.dstate = .ah ∧
      decode Config.default (.header (headerWord 0x07 0x01 0) true) = .ok (.packetV2 0x01 0 true) ∧
      decode Config.default (.header (headerWord 0x00 0x0D 5) false) = .error (.invalidHeader 0x00 0x0D 5) :=
  ⟨by decide +kernel, rfl, rfl, rfl, rfl⟩

/-- RdyReadOnlyAtPacketHeader: outside a header; at a header's last byte, of another kind. -/
theorem witness_RdyReadOnlyAtPacketHeader :
    ¬ (State.reset.dstate = .ah) ∧
      ¬ (({ atHeader with hdrCnt := 7, hdrKind := 0x08 } : State).hdrKind = Config.default.kindCode.packetV2) := by
  decide +kernel

/-- StreamByteResult: a middle byte and the last. -/
theorem witness_StreamByteResult :
    streamMessage.dstate = .rp ∧ streamMessage.streamed = true ∧ streamMessage.payCnt + 1 ≠ streamMessage.hdrSize ∧
      { streamMessage with payCnt := 2 }.payCnt + 1 = streamMessage.hdrSize := by decide +kernel

/-- ScratchByteResult: a middle byte at index 0, at index 63, and the overflow at index 64. -/
theorem witness_ScratchByteResult :
    addressMessage.dstate = .rp ∧ addressMessage.streamed = false ∧ ScratchCanonical addressMessage ∧
      ({ addressMessage with payCnt := 0 }.payCnt + 1 ≠ addressMessage.hdrSize) ∧
      ({ addressMessage with payCnt := 63, hdrSize := 65 }.payCnt.toNat < 64) ∧
      ({ addressMessage with payCnt := 63, hdrSize := 65 } : State).payCnt + 1 ≠ 65 ∧
      64 ≤ { addressMessage with payCnt := 64 }.payCnt.toNat :=
  ⟨rfl, rfl, by unfold ScratchCanonical; decide +kernel, by decide +kernel, by decide, by decide, by decide⟩

/-- ScratchByteResult: all its hypotheses at the boundary index 63. -/
theorem witness_ScratchByteResult_boundary :
    let s := { addressMessage with payCnt := 63, hdrSize := 65 }
    s.dstate = .rp ∧ s.streamed = false ∧ s.scratch.wf = true ∧ s.payCnt.toNat < 64 ∧ s.payCnt + 1 ≠ s.hdrSize := by
  decide +kernel

/-- LastScratchByteDispatches: an address, and a valid CLIENTCONFIG_V2. -/
theorem witness_LastScratchByteDispatches :
    (addressMessage.streamOpen = false ∧ addressMessage.payCnt.toNat < 64 ∧
      addressMessage.payCnt + 1 = addressMessage.hdrSize ∧ addressMessage.hdrKind ≠ 0x06) ∧
    configMessage.dstate = .rp ∧ configMessage.streamed = false ∧ configMessage.scratch.wf = true ∧
      configMessage.payCnt + 1 = configMessage.hdrSize ∧
      configMessage.hdrKind = configMessage.cfg.kindCode.clientConfigV2 ∧
      crcFold configMessage.cfg.crc configMessage.crcAcc 0x7A = configMessage.crcRx := by decide +kernel

/-- DiscardByteResult: a middle byte, and the last with a valid checksum. -/
theorem witness_DiscardByteResult :
    discardMessage.dstate = .dp ∧ discardMessage.streamOpen = false ∧
      { discardMessage with payCnt := 0 }.payCnt + 1 ≠ discardMessage.hdrSize ∧
      discardMessage.payCnt + 1 = discardMessage.hdrSize ∧
      crcFold discardMessage.cfg.crc discardMessage.crcAcc 0xCC = discardMessage.crcRx := by decide +kernel

/-- The invariant statements: a block in the middle of an accepted stream meets the invariants. -/
theorem witness_Inv_stream : Inv 0 streamMessage where
  cfg := by decide +kernel
  markBound := Nat.zero_le _
  awaitingIntron h := absurd h (by decide +kernel)
  awaitingHeader h := absurd h (by decide +kernel)
  receivingPayload _ :=
    { hdrCnt := rfl, wfill := rfl, payCnt := by decide +kernel, accepted := by decide +kernel, streamOpen := rfl
      streamedKind := by decide +kernel, scratchFits := fun h => absurd h (by decide +kernel) }
  discardingPayload h := absurd h (by decide +kernel)
  wfill := by decide +kernel
  hdrCnt := by decide +kernel
  r2sCount := by decide +kernel
  s2rCount := by decide +kernel

/-- The invariant statements: a block that awaits a header, with a full queue. -/
theorem witness_Inv_header : Inv 0 { atHeader with r2s := entries 20 } where
  cfg := by decide +kernel
  markBound := Nat.zero_le _
  awaitingIntron h := absurd h (by decide +kernel)
  awaitingHeader _ :=
    { hdrCnt := by decide +kernel, wfill := rfl, win := .inl (by decide +kernel), payCnt := rfl, streamed := rfl
      streamOpen := rfl }
  receivingPayload h := absurd h (by decide +kernel)
  discardingPayload h := absurd h (by decide +kernel)
  wfill := by decide +kernel
  hdrCnt := by decide +kernel
  r2sCount := by decide +kernel
  s2rCount := by decide +kernel

/-- DfrResetResult and PacketAsksTheTunnel: both values of STREAM_OPEN. -/
theorem witness_stream_open_and_closed : streamMessage.streamOpen = true ∧ atHeader.streamOpen = false := by
  decide +kernel

/-- ScratchKindsEnterReceiving: the lengths at and next to both bounds. -/
theorem witness_ScratchKindsEnterReceiving :
    (10 ≤ (10 : BitVec 16).toNat ∧ (64 : BitVec 16).toNat ≤ 64) ∧
      ¬ (10 ≤ (9 : BitVec 16).toNat ∧ (9 : BitVec 16).toNat ≤ 64) ∧
      ¬ (10 ≤ (65 : BitVec 16).toNat ∧ (65 : BitVec 16).toNat ≤ 64) := by decide

/-- The whole-message statements start from a fresh search, which the state after reset is, with any garbage in which
the Intron does not come early: none, or a partial Intron. -/
theorem witness_FreshIntronSearch :
    FreshIntronSearch State.reset ∧ ScratchCanonical State.reset ∧ NoEarlyMatch [] i0 ∧
      NoEarlyMatch [0x13, 0x55, 0x4E, 0x00] i0 := by
  refine ⟨⟨rfl, rfl, rfl⟩, by unfold ScratchCanonical; rfl, fun j hj => absurd hj (by simp), ?_⟩
  intro j hj
  have : j = 0 ∨ j = 1 ∨ j = 2 ∨ j = 3 := by simp only [List.length_cons, List.length_nil] at hj; omega
  obtain rfl | rfl | rfl | rfl := this <;> decide +kernel

/-- MessageDispatchedWithItsValidity, RoundTripDispatch and ResynchronisesAfterGarbage: the accepted kinds they range
over. -/
theorem witness_accepted_kinds :
    accept State.reset.cfg 0x00 (BitVec.ofNat 16 address.length) = true ∧ (0x00 : Byte) ≠ 0x07 ∧
      (0x00 : Byte) ≠ State.reset.cfg.kindCode.clientConfigV2 ∧
      accept State.reset.cfg 0x06 (BitVec.ofNat 16 configPayload.length) = true ∧
      State.reset.cfg.kindCode.clientConfigV2 = 0x06 ∧ State.reset.cfg.kindCode.packetV2 = 0x07 := by decide +kernel

/-- PacketIsNeverRejected: payloads of one byte. -/
theorem witness_PacketIsNeverRejected :
    State.reset.cfg.wf = true ∧ [(0x01 : Byte)].length ≤ 65535 ∧ [(0x01 : Byte)] ≠ [] := by decide +kernel

/-- ChunkSizeIndependence: the state after reset has no hold, no command and no turn. -/
theorem witness_ChunkSizeIndependence :
    State.reset.heldSerial = false ∧ State.reset.serialPort = [] ∧ State.reset.turns = [] := by decide

/-- The whole-message statements: all hypotheses of one of them together. -/
theorem witness_whole_message :
    let s := State.reset
    s.cfg.wf = true ∧ FreshIntronSearch s ∧ ScratchCanonical s ∧ NoEarlyMatch [0x13, 0x55, 0x4E, 0x00] s.intron ∧
      address.length ≤ 65535 ∧ accept s.cfg 0x00 (BitVec.ofNat 16 address.length) = true ∧
      (0x00 : Byte) ≠ s.cfg.kindCode.packetV2 ∧ (0x00 : Byte) ≠ s.cfg.kindCode.clientConfigV2 :=
  ⟨by decide +kernel, witness_FreshIntronSearch.1, witness_FreshIntronSearch.2.1, witness_FreshIntronSearch.2.2.2,
    by decide, by decide +kernel, by decide, by decide⟩

/-- ConfigFieldsExtracted: an SSID and a password at the bounds, and payloads of 10 and 64 bytes. -/
theorem witness_ConfigFieldsExtracted :
    ((List.replicate 32 (0x41 : Byte)).length ≤ 32 ∧
      10 + (List.replicate 32 (0x41 : Byte)).length + (List.replicate 22 (0x42 : Byte)).length ≤ 64) ∧
    (10 ≤ (List.replicate 10 (0 : Byte)).length ∧ (List.replicate 64 (0 : Byte)).length ≤ 64) := by decide +kernel

/-- ConfigFieldsExtracted's truncated forms: an SSID of 54 bytes with no password byte left, and an SSIDLen of exactly
the bytes present and beyond them, for 1 and 55 bytes. -/
theorem witness_ConfigFieldsExtracted_truncated :
    10 + (List.replicate 54 (0x41 : Byte)).length + ([] : List Byte).length ≤ 64 ∧
      (1 ≤ [(0x61 : Byte)].length ∧ 9 + [(0x61 : Byte)].length ≤ 64 ∧ [(0x61 : Byte)].length ≤ (1 : Byte).toNat) ∧
      (9 + (List.replicate 55 (0x41 : Byte)).length ≤ 64 ∧
        (List.replicate 55 (0x41 : Byte)).length ≤ (0xFF : Byte).toNat) := by decide +kernel

/-- AssembledLinesDecode: a line with a payload and one without. -/
theorem witness_AssembledLinesDecode :
    (∀ k v p, (Asm.tx (.name .scanStop) 0 []) = .tx k v p → p.length ≤ 65535) ∧
      ∀ k v p, Asm.linkup = .tx k v p → p.length ≤ 65535 := by
  refine ⟨fun k v p h => ?_, fun k v p h => by cases h⟩
  cases h
  exact Nat.zero_le _

/-- EnqResult: a handle in use, a free one with the last place left, a free one on a full queue. -/
theorem witness_EnqResult :
    (0x100 : BitVec 32) ∈ fullQueue.handles ∧ (0x113 : BitVec 32) ∉ ({ fullQueue with r2s := entries 19 }).handles ∧
      (({ fullQueue with r2s := entries 19 } : State).queue .r2s).length < fullQueue.cfg.qcap ∧
      (0x114 : BitVec 32) ∉ fullQueue.handles ∧ fullQueue.cfg.qcap ≤ (fullQueue.queue .r2s).length := by decide +kernel

/-- DeqResult: a queue with one entry and an empty one. -/
theorem witness_DeqResult :
    ({ State.reset with r2s := entries 1 }).r2s = ⟨60, 0x100⟩ :: [] ∧
      ({ State.reset with s2r := entries 2 }).s2r = ⟨60, 0x100⟩ :: [⟨60, 0x101⟩] ∧ State.reset.s2r = [] := by
  decide +kernel

/-- QueuesAreIndependent: an ENQ and a DEQ that complete. -/
theorem witness_QueuesAreIndependent :
    QId.r2s ≠ QId.s2r ∧ (∃ t, exec (.enq .s2r 3 0x200) fullQueue = .next t) ∧ ∃ t, exec (.deq .s2r) fullQueue = .next t :=
  ⟨by decide, ⟨_, rfl⟩, ⟨_, rfl⟩⟩

/-- QueuesAreIndependent, its read half: a handle free in both states, and one in use in both. -/
theorem witness_QueuesAreIndependent_read :
    ((0x200 : BitVec 32) ∉ fullQueue.handles ∧ (0x200 : BitVec 32) ∉ (fullQueue.setQueue .r2s []).handles) ∧
      (0x300 : BitVec 32) ∈ ({ fullQueue with s2r := [⟨1, 0x300⟩] } : State).handles ∧
      (0x300 : BitVec 32) ∈ (({ fullQueue with s2r := [⟨1, 0x300⟩] } : State).setQueue .r2s []).handles := by
  decide +kernel

/-- StepKeepsFifoOrder, StepKeepsHandlesDistinct and StepKeepsTunnelProtocol: a block with a queued entry and an open
stream, whose next step is a DEQ. -/
theorem witness_ledgers :
    let s := { issued streamMessage .serial 0x0500000000000000 with
      r2s := [⟨60, 0x100⟩], history := [.qEnq .r2s 60 0x100, .tunBegin 1 3 true, .tunUpdate 0xAA] }
    QueueLedger .r2s s ∧ QueueLedger .s2r s ∧ HandlesDistinct s ∧ TunnelLedger s ∧ ScratchCanonical s ∧
      ∃ t, step s = .next t := by
  refine ⟨rfl, rfl, ?_, rfl, rfl, _, rfl⟩
  unfold HandlesDistinct
  decide +kernel

/-- StepKeepsInvariants, StepKeepsScratchCanonical, OnlyPayloadByteStoresToScratch, RecordsAreNeverCleared and
OnlyHandleReuseIsReachable: a payload byte and a step that completes. -/
theorem witness_steps :
    (∃ t, exec (.rxByte 0xBB true) streamMessage = .next t) ∧
      (∃ t, step (issued streamMessage .serial 0x01000000000001BB) = .next t) ∧
      (∃ t, exec (.rxByte 0xBC false) addressMessage = .next t) ∧ (0 : Nat) ≠ addressMessage.payCnt.toNat :=
  ⟨⟨_, rfl⟩, ⟨_, rfl⟩, ⟨_, rfl⟩, by decide +kernel⟩

/-- FaultingStepOnlyRecords: each of the three faults, in a state that raises it. -/
theorem witness_FaultingStepOnlyRecords :
    (nextOf (exec (.enq .s2r 1 0x100) fullQueue)).map State.fault = some [.handleReuse .s2r 0x100] ∧
      (nextOf (exec (.packetV2 0x01 3 true) streamMessage)).map State.fault = some [.streamOverlap] ∧
      (nextOf (exec (.rxByte 0x00 false) { addressMessage with payCnt := 64 })).map State.fault =
        some [.scratchOverflow 64] := by decide +kernel

/-- RadioStepsLeaveSerialState: the radio domain's turn, with an ENQ. -/
theorem witness_RadioStepsLeaveSerialState :
    (issued streamMessage .radio 0x0400003C00000100).turns = .radio :: [] ∧
      ∃ t, step (issued streamMessage .radio 0x0400003C00000100) = .next t := ⟨rfl, _, rfl⟩

/-- IntronChangesOnlyByConfigOrReset: the Intron changes on the receive side, on the transmit side and by HW_RESET. -/
theorem witness_IntronChangesOnlyByConfigOrReset :
    (nextOf (exec (.rxByte 0x7A false) configMessage)).map State.intron = some newIntron ∧
      (nextOf (exec (.txMsg 0x06 0x00 15 configPayload) State.reset)).map State.intron = some newIntron ∧
      (nextOf (exec .hwReset { State.reset with intron := newIntron })).map State.intron = some i0 ∧ newIntron ≠ i0 := by
  decide +kernel

end Sys2Proof.Tests
end

/-! PROOFS. First in, first out (45_queue_bridge.md R296; 20_memory.md R90): each queue's ledger is kept by every step.
A ledger follows its queue along any events that take in and out what the queue gains and loses (`QueueLedger.extend`);
ENQ, DEQ and HW_RESET are such extensions, and every other instruction leaves both queues and emits no queue event
(`LeavesQueues`). -/

namespace Sys2Proof.Machine

/-! ### The ledger along a longer history -/

@[simp] theorem entriesIn_append (q : QId) (h es : List Event) :
    entriesIn q (h ++ es) = entriesIn q h ++ entriesIn q es := List.filterMap_append

@[simp] theorem entriesOut_append (q : QId) (h es : List Event) :
    entriesOut q (h ++ es) = entriesOut q h ++ entriesOut q es := List.filterMap_append

@[simp] theorem entriesIn_nil (q : QId) : entriesIn q [] = [] := rfl

@[simp] theorem entriesOut_nil (q : QId) : entriesOut q [] = [] := rfl

@[simp] theorem entriesIn_cons (q : QId) (e : Event) (es : List Event) :
    entriesIn q (e :: es) = (e.entered q).toList ++ entriesIn q es := by
  cases h : e.entered q <;> simp [entriesIn, h]

@[simp] theorem entriesOut_cons (q : QId) (e : Event) (es : List Event) :
    entriesOut q (e :: es) = (e.left q).toList ++ entriesOut q es := by
  cases h : e.left q <;> simp [entriesOut, h]

/-- The ledger is kept when the entries taken in join the queue's back and those taken out leave its front. -/
theorem QueueLedger.extend {q : QId} {s t : State} {es : List Event} (hs : QueueLedger q s)
    (hh : t.history = s.history ++ es) (hq : s.queue q ++ entriesIn q es = entriesOut q es ++ t.queue q) :
    QueueLedger q t := by
  unfold QueueLedger at hs ⊢
  rw [hh, entriesIn_append, entriesOut_append, hs, List.append_assoc, List.append_assoc, hq]

/-- A state with the same history and queues has the same ledgers. -/
theorem QueueLedger.congr {q : QId} {s t : State} (hs : QueueLedger q s) (hh : t.history = s.history)
    (hq : t.queue q = s.queue q) : QueueLedger q t :=
  hs.extend (es := []) (by simp [hh]) (by simp [hq])

/-! ### Events of no queue -/

/-- The event takes no entry into a queue and none out of one. -/
def Event.queueFree (e : Event) : Prop := ∀ q, e.entered q = none ∧ e.left q = none

theorem entriesIn_of_queueFree {es : List Event} (h : ∀ e ∈ es, e.queueFree) (q : QId) : entriesIn q es = [] :=
  List.filterMap_eq_nil_iff.mpr fun e he => (h e he q).1

theorem entriesOut_of_queueFree {es : List Event} (h : ∀ e ∈ es, e.queueFree) (q : QId) : entriesOut q es = [] :=
  List.filterMap_eq_nil_iff.mpr fun e he => (h e he q).2

/-! ### The events of HW_RESET (70_reset_and_hazards.md R380) -/

@[simp] theorem entriesIn_freeEvents (p q : QId) (es : List Entry) : entriesIn q (freeEvents p es) = [] := by
  simp [entriesIn, freeEvents, Event.entered]

@[simp] theorem entriesOut_freeEvents (p q : QId) (es : List Entry) :
    entriesOut q (freeEvents p es) = if p = q then es else [] := by
  split_ifs with h <;> simp [entriesOut, freeEvents, List.filterMap_map, Function.comp_def, Event.left, h]

/-- The reset takes no entry in. -/
theorem entriesIn_resetEvents (q : QId) (s : State) : entriesIn q (resetEvents s) = [] := by
  unfold resetEvents
  cases s.streamOpen <;> simp [Event.entered]

/-- The reset takes out what each queue holds, front first. -/
theorem entriesOut_resetEvents (q : QId) (s : State) : entriesOut q (resetEvents s) = s.queue q := by
  unfold resetEvents
  cases q <;> cases s.streamOpen <;> simp [Event.left, State.queue]

/-! ### Steps that leave the queues -/

theorem SameOutsideDeframer.trans {s t u : State} (h : SameOutsideDeframer s t) (k : SameOutsideDeframer t u) :
    SameOutsideDeframer s u where
  cfg := k.cfg.trans h.cfg
  r2s := k.r2s.trans h.r2s
  s2r := k.s2r.trans h.s2r
  fault := k.fault.trans h.fault
  refused := k.refused.trans h.refused
  heldSerial := k.heldSerial.trans h.heldSerial
  heldRadio := k.heldRadio.trans h.heldRadio
  serialPort := k.serialPort.trans h.serialPort
  radioPort := k.radioPort.trans h.radioPort
  systemPort := k.systemPort.trans h.systemPort
  turns := k.turns.trans h.turns

theorem SameOutsideDeframer.queue {s t : State} (h : SameOutsideDeframer s t) (q : QId) : t.queue q = s.queue q := by
  cases q
  · exact h.r2s
  · exact h.s2r

/-- Only the serial domain's registers change, and the history grows by events of no queue. -/
structure LeavesQueues (s t : State) : Prop where
  rest : SameOutsideDeframer s t
  events : ∃ es, t.history = s.history ++ es ∧ ∀ e ∈ es, e.queueFree

namespace LeavesQueues

theorem of_history_eq {s t : State} (hh : t.history = s.history)
    (h : SameOutsideDeframer s t := by constructor <;> rfl) : LeavesQueues s t :=
  ⟨h, [], by simp [hh], by simp⟩

theorem of_emits {s t : State} {e : Event} (he : e.queueFree) (hh : t.history = s.history ++ [e])
    (h : SameOutsideDeframer s t := by constructor <;> rfl) : LeavesQueues s t :=
  ⟨h, [e], hh, by simpa using he⟩

theorem emit (s : State) {e : Event} (he : e.queueFree) : LeavesQueues s (s.emit e) := of_emits he rfl

theorem trans {s t u : State} (h : LeavesQueues s t) (k : LeavesQueues t u) : LeavesQueues s u := by
  obtain ⟨hrest, es, hh, hes⟩ := h
  obtain ⟨krest, fs, kh, kfs⟩ := k
  refine ⟨hrest.trans krest, es ++ fs, by rw [kh, hh, List.append_assoc], fun e he => ?_⟩
  exact (List.mem_append.mp he).elim (hes e) (kfs e)

theorem queueLedger {q : QId} {s t : State} (h : LeavesQueues s t) (hs : QueueLedger q s) : QueueLedger q t := by
  obtain ⟨hrest, es, hh, hes⟩ := h
  exact hs.extend hh (by
    rw [entriesIn_of_queueFree hes, entriesOut_of_queueFree hes, hrest.queue, List.append_nil, List.nil_append])

end LeavesQueues

/-! ### The deframer leaves the queues -/

theorem softReset_leavesQueues (s : State) : LeavesQueues s (softReset s) := by
  have hrest : SameOutsideDeframer s (softReset s) := by constructor <;> simp
  cases ho : s.streamOpen
  · exact .of_history_eq (by simp [ho]) hrest
  · exact .of_emits (e := .tunAbandon) (fun _ => ⟨rfl, rfl⟩) (by simp [ho]) hrest

theorem intronStep_leavesQueues (b : Byte) (s : State) : LeavesQueues s (intronStep b s) := by
  obtain ⟨-, -, h⟩ | ⟨-, h⟩ := intronStep_cases b s <;> rw [h] <;> exact .of_history_eq rfl

theorem dispatch_leavesQueues (valid : Bool) (s : State) : LeavesQueues s (dispatch valid s) := by
  obtain ⟨-, -, h⟩ | ⟨-, h⟩ := dispatch_cases valid s <;> rw [h]
  · refine ⟨by constructor <;> rfl, _, rfl, fun e he => ?_⟩
    obtain rfl | rfl : e = _ ∨ e = _ := by simpa using he
    · exact fun _ => ⟨rfl, rfl⟩
    · exact fun _ => ⟨rfl, rfl⟩
  · exact .emit s fun _ => ⟨rfl, rfl⟩

theorem deliver_leavesQueues (s : State) : LeavesQueues s (deliver s) := by
  obtain ⟨-, h⟩ | ⟨-, -, h⟩ | ⟨-, -, h⟩ := deliver_cases s <;> rw [h]
  · exact .of_history_eq rfl
  · exact .of_emits (fun _ => ⟨rfl, rfl⟩) rfl
  · exact (dispatch_leavesQueues _ s).trans (.of_history_eq rfl)

theorem complete_leavesQueues (s : State) : LeavesQueues s (complete s) :=
  (deliver_leavesQueues s).trans (softReset_leavesQueues _)

theorem badHeader_leavesQueues (s : State) : LeavesQueues s (badHeader s) :=
  (LeavesQueues.of_emits (fun _ => ⟨rfl, rfl⟩) rfl).trans (softReset_leavesQueues _)

theorem completeIfEmpty_leavesQueues (s : State) : LeavesQueues s (completeIfEmpty s) := by
  unfold completeIfEmpty
  split
  · exact complete_leavesQueues s
  · exact .of_history_eq rfl

theorem beginStream_leavesQueues {rdy : Bool} {s t : State} (h : beginStream rdy s = .ok t) : LeavesQueues s t := by
  obtain ⟨-, k⟩ | ⟨-, -, k⟩ | ⟨-, -, k⟩ := beginStream_cases rdy s <;> rw [k] at h <;> cases h <;>
    exact .of_emits (fun _ => ⟨rfl, rfl⟩) rfl

theorem headerComplete_leavesQueues {rdy : Bool} {s t : State} (h : headerComplete rdy s = .ok t) :
    LeavesQueues s t := by
  have hclear : LeavesQueues s { s with payCnt := 0 } := .of_history_eq rfl
  obtain ⟨-, k⟩ | ⟨-, -, k⟩ | ⟨-, -, k⟩ := headerComplete_cases rdy s <;> rw [k] at h
  · cases h
    exact hclear.trans ((badHeader_leavesQueues _).trans (completeIfEmpty_leavesQueues _))
  · cases hb : beginStream rdy { s with payCnt := 0 } with
    | error f => rw [hb] at h; cases h
    | ok u =>
      rw [hb] at h
      cases h
      exact hclear.trans ((beginStream_leavesQueues hb).trans (completeIfEmpty_leavesQueues u))
  · cases h
    refine .trans ?_ (completeIfEmpty_leavesQueues _)
    exact .of_history_eq rfl

/-- Whatever its index, a header byte writes only the header registers and the two checksums. -/
theorem headerByte_writes (b : Byte) (s : State) : ∃ k v n acc rx, headerByte b s =
    { s with hdrKind := k, hdrVar := v, hdrSize := n, crcAcc := acc, crcRx := rx, hdrCnt := s.hdrCnt + 1 } := by
  simp only [headerByte]
  split_ifs <;> exact ⟨_, _, _, _, _, rfl⟩

theorem headerByte_leavesQueues (b : Byte) (s : State) : LeavesQueues s (headerByte b s) := by
  obtain ⟨k, v, n, acc, rx, h⟩ := headerByte_writes b s
  rw [h]
  exact .of_history_eq rfl

theorem headerStep_leavesQueues {b : Byte} {rdy : Bool} {s t : State} (h : headerStep b rdy s = .ok t) :
    LeavesQueues s t := by
  simp only [headerStep] at h
  split at h
  · exact (headerByte_leavesQueues b s).trans (headerComplete_leavesQueues h)
  · cases h
    exact headerByte_leavesQueues b s

theorem countPayload_leavesQueues (s : State) : LeavesQueues s (countPayload s) := by
  have hcount : LeavesQueues s { s with payCnt := s.payCnt + 1 } := .of_history_eq rfl
  unfold countPayload
  split
  · exact hcount.trans (complete_leavesQueues _)
  · exact hcount

theorem foldByte_leavesQueues (s : State) (b : Byte) : LeavesQueues s (foldByte s b) :=
  .of_history_eq rfl

theorem streamByte_leavesQueues (b : Byte) (s : State) : LeavesQueues s (streamByte b s) := by
  refine .trans ?_ (countPayload_leavesQueues _)
  exact (foldByte_leavesQueues s b).trans (.emit _ fun _ => ⟨rfl, rfl⟩)

theorem discardByte_leavesQueues (b : Byte) (s : State) : LeavesQueues s (discardByte b s) :=
  (foldByte_leavesQueues s b).trans (countPayload_leavesQueues _)

theorem scratchByte_leavesQueues {b : Byte} {s t : State} (h : scratchByte b s = .ok t) : LeavesQueues s t := by
  unfold scratchByte at h
  obtain ⟨-, k⟩ | ⟨-, k⟩ := memWrite_cases s.scratch s.payCnt.toNat b <;> rw [k] at h <;> cases h
  refine .trans ?_ (countPayload_leavesQueues _)
  exact .of_history_eq rfl

theorem receive_leavesQueues {b : Byte} {rdy : Bool} {s t : State} (h : receive b rdy s = .ok t) :
    LeavesQueues s t := by
  unfold receive at h
  split at h
  · cases h
    exact intronStep_leavesQueues b s
  · exact headerStep_leavesQueues h
  · split at h
    · cases h
      exact streamByte_leavesQueues b s
    · exact scratchByte_leavesQueues h
  · cases h
    exact discardByte_leavesQueues b s

/-! ### The framer leaves the queues -/

theorem switchIntron_leavesQueues (kind : Byte) (p : List Byte) (s : State) :
    LeavesQueues s (switchIntron kind p s) := by
  unfold switchIntron
  split
  · exact .of_emits (fun _ => ⟨rfl, rfl⟩) rfl
  · exact .of_history_eq rfl

theorem execTxMsg_leavesQueues {kind var : Byte} {size : BitVec 16} {p : List Byte} {s t : State}
    (h : execTxMsg kind var size p s = .next t) : LeavesQueues s t := by
  unfold execTxMsg at h
  split at h <;> cases h
  · exact .emit s fun _ => ⟨rfl, rfl⟩
  · exact (LeavesQueues.emit s fun _ => ⟨rfl, rfl⟩).trans (switchIntron_leavesQueues kind p _)

/-! ### Each instruction keeps the ledgers -/

/-- A step that may fault keeps a ledger when its pseudocode does: a fault only joins FAULT. -/
theorem finish_queueLedger {q : QId} {s t : State} {r : Except FaultCode State} (hs : QueueLedger q s)
    (hr : ∀ u, r = .ok u → QueueLedger q u) (h : finish s r = .next t) : QueueLedger q t := by
  obtain ⟨u, hu, k⟩ | ⟨f, -, k⟩ := finish_cases s r <;> rw [k] at h <;> cases h
  · exact hr _ hu
  · exact hs.congr rfl (by cases q <;> rfl)

theorem execRxByte_queueLedger {q : QId} {b : Byte} {rdy : Bool} {s t : State} (hs : QueueLedger q s)
    (h : execRxByte b rdy s = .next t) : QueueLedger q t :=
  finish_queueLedger hs (fun _ hu => (receive_leavesQueues hu).queueLedger hs) h

theorem execHeader_queueLedger {q : QId} {k : Kind} {var : Byte} {size : BitVec 16} {rdy : Bool} {s t : State}
    (hs : QueueLedger q s) (h : execHeader k var size rdy s = .next t) : QueueLedger q t := by
  have hlatch : LeavesQueues s (latchHeader k var size s) := .of_history_eq rfl
  exact finish_queueLedger hs (fun _ hu => (hlatch.trans (headerComplete_leavesQueues hu)).queueLedger hs) h

/-- ENQ: an appended entry enters at the back with its Q_ENQ; a dropped one is in neither list. -/
theorem enqueue_queueLedger {p q : QId} {l : BitVec 16} {h : BitVec 32} {s t : State} (hs : QueueLedger p s)
    (ht : enqueue q l h s = .ok t) : QueueLedger p t := by
  obtain ⟨-, k⟩ | ⟨-, -, k⟩ | ⟨-, -, k⟩ := enqueue_cases q l h s <;> rw [k] at ht <;> cases ht
  · refine hs.extend (es := [.qEnq q l h]) (by simp) ?_
    by_cases hpq : p = q
    · subst hpq
      simp [Event.entered, Event.left]
    · simp [Event.entered, Event.left, Ne.symm hpq, State.setQueue_other s hpq]
  · exact (LeavesQueues.emit s fun _ => ⟨rfl, rfl⟩).queueLedger hs

/-- DEQ: the front entry leaves with its Q_DEQ; a DEQ that waits moves nothing. -/
theorem execDeq_queueLedger {p q : QId} {s t : State} (hs : QueueLedger p s) (h : execDeq q s = .next t) :
    QueueLedger p t := by
  obtain ⟨-, k⟩ | ⟨e, es, hq, k⟩ := execDeq_cases q s <;> rw [k] at h <;> cases h
  · exact hs.congr (by simp) (by simp)
  · refine hs.extend (es := [.qDeq q e.len e.handle]) (by simp) ?_
    by_cases hpq : p = q
    · subst hpq
      simp [Event.entered, Event.left, hq]
    · simp [Event.entered, Event.left, Ne.symm hpq, State.setQueue_other s hpq]

/-- HW_RESET: every entry held leaves with its Q_FREE, and both queues are empty. -/
theorem execHwReset_queueLedger {q : QId} {s t : State} (hs : QueueLedger q s) (h : execHwReset s = .next t) :
    QueueLedger q t := by
  cases h
  refine hs.extend (resetProcedure_history s) ?_
  have hempty : (resetProcedure s).queue q = [] := by cases q <;> rfl
  rw [entriesIn_resetEvents, entriesOut_resetEvents, hempty]

theorem exec_queueLedger {q : QId} {i : Instr} {s t : State} (hs : QueueLedger q s) (h : exec i s = .next t) :
    QueueLedger q t := by
  cases i with
  | rxByte b rdy => exact execRxByte_queueLedger hs h
  | dfrReset =>
    cases h
    exact (softReset_leavesQueues s).queueLedger hs
  | txMsg kind var size p => exact (execTxMsg_leavesQueues h).queueLedger hs
  | enq p l handle => exact finish_queueLedger hs (fun _ => enqueue_queueLedger hs) h
  | deq p => exact execDeq_queueLedger hs h
  | rdState =>
    cases h
    exact (LeavesQueues.emit s fun _ => ⟨rfl, rfl⟩).queueLedger hs
  | hwReset => exact execHwReset_queueLedger hs h
  | deviceInfoV2 | clientConfigV2 | packetV2 | scanStart | scanStop | scanApCnt | scanApGetReq | scanApGetRsp =>
    exact execHeader_queueLedger hs h

/-! ### The obligation -/

theorem SameButPorts.queueLedger {q : QId} {s t : State} (h : SameButPorts s t) (hs : QueueLedger q s) :
    QueueLedger q t := by
  obtain ⟨_, _, _, _, rfl⟩ := h
  exact hs.congr rfl (by cases q <;> rfl)

/-- Settles O42: a fetch moves only ports and turns, a refusal only joins REFUSED, and every instruction keeps the
ledgers. -/
theorem stepKeepsFifoOrder : Obligations.StepKeepsFifoOrder := by
  intro s t q hs h
  obtain ⟨u, hu, k | ⟨c, k⟩ | ⟨i, k, -⟩⟩ := step_cases s <;> rw [k] at h
  · cases h
    exact hu.queueLedger hs
  · cases h
    exact (hu.queueLedger hs).congr rfl (by cases q <;> rfl)
  · exact exec_queueLedger (hu.queueLedger hs) h

end Sys2Proof.Machine

/-! PROOFS. The wire bytes of a message (42_framer.md R200): a frame is twelve header bytes, the checksum of those and
the payload, and the payload (`frame_eq`); the two numbers in it read back from their big-endian bytes. -/

namespace Sys2Proof.Machine

/-! ### Big-endian numbers (00_scope.md R8) -/

@[simp] theorem be16_length (v : BitVec 16) : (be16 v).length = 2 := rfl

@[simp] theorem be32_length (v : BitVec 32) : (be32 v).length = 4 := rfl

@[simp] theorem intronBytes_length (i : Intron) : (intronBytes i).length = 8 := rfl

/-- The two bytes of `be16`, the more significant first, make up the number. -/
theorem be16_toNat (v : BitVec 16) : ((be16 v).getD 0 0).toNat * 256 + ((be16 v).getD 1 0).toNat = v.toNat := by
  have hv := v.isLt
  simp only [be16, List.getD_cons_zero, List.getD_cons_succ, BitVec.extractLsb'_toNat, Nat.shiftRight_eq_div_pow]
  omega

/-- The four bytes of `be32`, the most significant first, make up the number. -/
theorem be32_toNat (v : BitVec 32) :
    ((((be32 v).getD 0 0).toNat * 256 + ((be32 v).getD 1 0).toNat) * 256 + ((be32 v).getD 2 0).toNat) * 256 +
      ((be32 v).getD 3 0).toNat = v.toNat := by
  have hv := v.isLt
  simp only [be32, List.getD_cons_zero, List.getD_cons_succ, BitVec.extractLsb'_toNat, Nat.shiftRight_eq_div_pow]
  omega

/-! ### The frame as header, checksum and payload -/

/-- The bytes of a frame before its checksum: Intron, Kind, VariableByte and PayloadSize (30_encoding.md R110). -/
def frameHead (i : Intron) (k v : Byte) (n : BitVec 16) : List Byte := intronBytes i ++ [k, v] ++ be16 n

@[simp] theorem frameHead_length (i : Intron) (k v : Byte) (n : BitVec 16) : (frameHead i k v n).length = 12 := by
  simp [frameHead]

/-- The checksum covers the header and the payload (41_crc32.md R183). -/
theorem msgCrc_eq (c : CrcAlgorithm) (i : Intron) (k v : Byte) (n : BitVec 16) (p : List Byte) :
    msgCrc c i k v n p = crc32 c (frameHead i k v n ++ p) := rfl

theorem frame_eq (c : CrcAlgorithm) (i : Intron) (k v : Byte) (p : List Byte) :
    frame c i k v p =
      frameHead i k v (BitVec.ofNat 16 p.length) ++
        (be32 (crc32 c (frameHead i k v (BitVec.ofNat 16 p.length) ++ p)) ++ p) := rfl

theorem frame_length (c : CrcAlgorithm) (i : Intron) (k v : Byte) (p : List Byte) :
    (frame c i k v p).length = 16 + p.length := by
  simp only [frame_eq, List.length_append, frameHead_length, be32_length]
  omega

theorem frame_take_head (c : CrcAlgorithm) (i : Intron) (k v : Byte) (p : List Byte) :
    (frame c i k v p).take 12 = frameHead i k v (BitVec.ofNat 16 p.length) :=
  List.take_left' (frameHead_length ..)

theorem frame_drop_payload (c : CrcAlgorithm) (i : Intron) (k v : Byte) (p : List Byte) :
    (frame c i k v p).drop 16 = p := by
  rw [frame_eq, ← List.append_assoc]
  exact List.drop_left' (by simp)

/-- The byte at an index below 12 is the header's. -/
theorem frame_getD_head (c : CrcAlgorithm) (i : Intron) (k v : Byte) (p : List Byte) {j : Nat} (hj : j < 12) :
    (frame c i k v p).getD j 0 = (frameHead i k v (BitVec.ofNat 16 p.length)).getD j 0 := by
  rw [frame_eq]
  exact List.getD_append _ _ _ _ hj

/-- The four bytes from index 12 are the checksum's. -/
theorem frame_getD_checksum (c : CrcAlgorithm) (i : Intron) (k v : Byte) (p : List Byte) {j : Nat} (hj : j < 4) :
    (frame c i k v p).getD (12 + j) 0 = (be32 (crc32 c ((frame c i k v p).take 12 ++ p))).getD j 0 := by
  rw [frame_take_head, frame_eq, List.getD_append_right _ _ _ _ (by simp), frameHead_length, Nat.add_sub_cancel_left]
  exact List.getD_append _ _ _ _ hj

/-! ### The obligation -/

/-- Settles O13: the frame is cut at bytes 12 and 16, and each of its two numbers read from its bytes; the payload's
length fits PayloadSize. -/
theorem frameLayout : Obligations.FrameLayout := by
  intro c i k v p hp
  have hsize : (BitVec.ofNat 16 p.length).toNat = p.length := Nat.mod_eq_of_lt (by omega)
  refine ⟨frame_length .., ?intron, ?kind, ?var, ?size, ?checksum, frame_drop_payload ..⟩
  case intron =>
    rw [frame_eq, frameHead, List.append_assoc, List.append_assoc]
    exact List.take_left' (intronBytes_length i)
  case kind => exact frame_getD_head c i k v p (by decide)
  case var => exact frame_getD_head c i k v p (by decide)
  case size =>
    rw [frame_getD_head c i k v p (by decide), frame_getD_head c i k v p (by decide)]
    exact (be16_toNat _).trans hsize
  case checksum =>
    rw [frame_getD_checksum c i k v p (j := 0) (by decide), frame_getD_checksum c i k v p (j := 1) (by decide),
      frame_getD_checksum c i k v p (j := 2) (by decide), frame_getD_checksum c i k v p (j := 3) (by decide)]
    exact be32_toNat _

end Sys2Proof.Machine

/-! PROOFS. A payload byte of a discarded message (43_deframer.md R230): RX_BYTE in DiscardingPayload is DiscardByte,
a byte before the last only counts, and the last completes with no event, since a discarded message delivers nothing
and a closed stream is not abandoned. -/

namespace Sys2Proof.Machine

/-! ### The shared parts: SoftReset, the count, completion of a discarded message -/

/-- With no open stream to abandon, SoftReset is R48's column alone. -/
theorem softReset_eq_softResetColumn {s : State} (h : s.streamOpen = false) : softReset s = softResetColumn s := by
  rw [softReset_closed h, softResetColumn, h]

theorem countPayload_before_last {s : State} (h : s.payCnt + 1 ≠ s.hdrSize) :
    countPayload s = { s with payCnt := s.payCnt + 1 } := if_neg h

theorem countPayload_last {s : State} (h : s.payCnt + 1 = s.hdrSize) :
    countPayload s = complete { s with payCnt := s.payCnt + 1 } := if_pos h

theorem deliver_discarding {s : State} (h : s.dstate = .dp) :
    deliver s = { s with lastResult := discardedResult (crcValid s) } := if_pos h

theorem complete_discarding {s : State} (hd : s.dstate = .dp) (ho : s.streamOpen = false) :
    complete s = softResetColumn { s with lastResult := discardedResult (crcValid s) } := by
  rw [complete, deliver_discarding hd]
  exact softReset_eq_softResetColumn ho

/-! ### RX_BYTE in DiscardingPayload (43_deframer.md R220, R230) -/

theorem exec_rxByte_discarding {s : State} (h : s.dstate = .dp) (b : Byte) (rdy : Bool) :
    exec (.rxByte b rdy) s = .next (discardByte b s) := by
  have hreceive : receive b rdy s = .ok (discardByte b s) := by simp only [receive, h]
  exact congrArg (finish s) hreceive

theorem discardByte_before_last {s : State} (h : s.payCnt + 1 ≠ s.hdrSize) (b : Byte) :
    discardByte b s = { s with crcAcc := crcFold s.cfg.crc s.crcAcc b, payCnt := s.payCnt + 1 } :=
  countPayload_before_last (s := foldByte s b) h

/-- The reset clears the fold and the count of the last byte; the fold remains in the validity. -/
theorem discardByte_last {s : State} (hd : s.dstate = .dp) (ho : s.streamOpen = false)
    (h : s.payCnt + 1 = s.hdrSize) (b : Byte) :
    discardByte b s =
      softResetColumn { s with lastResult := discardedResult (crcValid (foldByte s b)) } :=
  (countPayload_last (s := foldByte s b) h).trans (complete_discarding hd ho)

/-- The validity of a discarded message, as the checksum comparison (41_crc32.md R184). -/
theorem discardedResult_crcValid (s : State) :
    discardedResult (crcValid s) = if s.crcAcc = s.crcRx then .discardOk else .discardBad := by
  simp [discardedResult, crcValid]

/-! ### The obligation -/

/-- Settles O24: RX_BYTE is DiscardByte here, and the byte either only counts or completes the message. -/
theorem discardByteResult : Obligations.DiscardByteResult := by
  intro s b rdy hd ho c
  rw [exec_rxByte_discarding hd]
  constructor
  · intro hmiddle
    rw [discardByte_before_last hmiddle]
  · intro hlast
    rw [discardByte_last hd ho hlast, discardedResult_crcValid]
    rfl

end Sys2Proof.Machine

/-! PROOFS. The two encodings (30_encoding.md R119, R127). A word is its fields at their bits (`eq_iff_agree`), so a row's
must-be-zero bits are its mask and match (`mustBeZeroClear_iff`), and encoding and decoding undo each other field by
field. A header word decodes to the wire row of its kind (`WireRow`) exactly when its kind and length are accepted. -/

namespace Sys2Proof

/-! ### Fields of a word -/

theorem extractLsb'_placed_same {W n lo : Nat} (x : BitVec n) (h : lo + n ≤ W) :
    (x.setWidth W <<< lo).extractLsb' lo n = x := by
  apply BitVec.eq_of_getLsbD_eq
  intro j hj
  have hW : lo + j < W := by omega
  simp [hj, hW]

theorem extractLsb'_placed_other {W n lo s len : Nat} (x : BitVec n) (h : lo + n ≤ s ∨ s + len ≤ lo) :
    (x.setWidth W <<< lo).extractLsb' s len = 0 := by
  apply BitVec.eq_of_getLsbD_eq
  intro j hj
  obtain h | h := h
  · have hx : x.getLsbD (s + j - lo) = false := BitVec.getLsbD_of_ge _ _ (by omega)
    simp [hx]
  · have hlo : s + j < lo := by omega
    simp [hlo]

@[simp] theorem fieldAt_same {n lo : Nat} (x : BitVec n) (h : lo + n ≤ 64) : (fieldAt x lo).extractLsb' lo n = x :=
  extractLsb'_placed_same x h

@[simp] theorem fieldAt_other {n lo s len : Nat} (x : BitVec n) (h : lo + n ≤ s ∨ s + len ≤ lo) :
    (fieldAt x lo).extractLsb' s len = 0 :=
  extractLsb'_placed_other x h

/-- Two words agree on consecutive fields of the widths `ns`, from bit `lo` up. -/
@[simp] def agree {W : Nat} (x y : BitVec W) : Nat → List Nat → Prop
  | _, [] => True
  | lo, n :: ns => x.extractLsb' lo n = y.extractLsb' lo n ∧ agree x y (lo + n) ns

theorem agree_iff_bits {W : Nat} (x y : BitVec W) (lo : Nat) (ns : List Nat) :
    agree x y lo ns ↔ ∀ j, lo ≤ j → j < lo + ns.sum → x.getLsbD j = y.getLsbD j := by
  induction ns generalizing lo with
  | nil => simp only [agree, List.sum_nil, true_iff]; omega
  | cons n ns ih =>
    simp only [agree, ih, List.sum_cons]
    constructor
    · rintro ⟨hfield, hrest⟩ j hlo hhi
      by_cases hj : j < lo + n
      · have hbit := congrArg (·.getLsbD (j - lo)) hfield
        have hn : j - lo < n := by omega
        simpa [hn, Nat.add_sub_cancel' hlo] using hbit
      · exact hrest j (by omega) (by omega)
    · refine fun h => ⟨BitVec.eq_of_getLsbD_eq fun j hj => ?_, fun j hlo hhi => h j (by omega) (by omega)⟩
      simp [hj, h (lo + j) (by omega) (by omega)]

/-- Fields that cover a word determine it. -/
theorem eq_iff_agree {W : Nat} {x y : BitVec W} (ns : List Nat) (h : ns.sum = W) : x = y ↔ agree x y 0 ns := by
  rw [agree_iff_bits, h, Nat.zero_add]
  exact ⟨fun hxy j _ _ => by rw [hxy], fun hb => BitVec.eq_of_getLsbD_eq fun j hj => hb j (Nat.zero_le j) hj⟩

/-! ### The opcode (30_encoding.md R119) -/

/-- OPC as a byte. -/
@[simp] def opcByte : Opc → Byte
  | .rxByte => 1
  | .dfrReset => 2
  | .txMsg => 3
  | .enq => 4
  | .deq => 5
  | .rdState => 6
  | .hwReset => 7

theorem opcOf_eq_some {w : CmdWord} {o : Opc} : opcOf w = some o ↔ opcField w = opcByte o := by
  unfold opcOf
  cases o <;> split_ifs <;> simp_all

theorem opcField_toNat (w : CmdWord) : (opcField w).toNat = w.toNat / 2 ^ 56 := by
  have hw := w.isLt
  rw [opcField, BitVec.extractLsb'_toNat, Nat.shiftRight_eq_div_pow]
  omega

theorem opcOf_eq_some_iff_number {w : CmdWord} {o : Opc} :
    opcOf w = some o ↔ w.toNat / 2 ^ 56 = Machine.opcNumber o := by
  rw [opcOf_eq_some, ← BitVec.toNat_inj, opcField_toNat]
  cases o <;> rfl

theorem opcOf_eq_none {w : CmdWord} (h : ∀ o, w.toNat / 2 ^ 56 ≠ Machine.opcNumber o) : opcOf w = none := by
  cases ho : opcOf w with
  | none => rfl
  | some o => exact absurd (opcOf_eq_some_iff_number.mp ho) (h o)

/-! ### Command words -/

/-- The widths of a command word's fields, from bit 0 up (30_encoding.md R119). -/
@[simp] def fieldWidths : Opc → List Nat
  | .rxByte => [8, 1, 47, 8]
  | .dfrReset => [56, 8]
  | .txMsg => [16, 16, 8, 8, 8, 8]
  | .enq => [32, 16, 1, 7, 8]
  | .deq => [48, 1, 7, 8]
  | .rdState => [56, 8]
  | .hwReset => [56, 8]

theorem fieldWidths_sum (o : Opc) : (fieldWidths o).sum = 64 := by cases o <;> rfl

theorem and_of_eq_allOnes {n : Nat} (x : BitVec n) {m : BitVec n} (h : m = BitVec.allOnes n) : x &&& m = x := by
  simp [h]

/-- The must-be-zero bits are clear exactly when the word meets its row's mask and match. -/
theorem mustBeZeroClear_iff {w : CmdWord} {o : Opc} (ho : opcOf w = some o) :
    mustBeZeroClear w o = true ↔ w &&& Machine.rowMask o = Machine.rowMatch o := by
  rw [opcOf_eq_some, opcField] at ho
  rw [eq_iff_agree (fieldWidths o) (fieldWidths_sum o)]
  cases o <;> simp_all [mustBeZeroClear, Machine.rowMask, Machine.rowMatch, BitVec.extractLsb'_and, and_of_eq_allOnes,
    and_comm]

/-- A row's mask and match say which opcode the word has and that its must-be-zero bits are clear. -/
theorem meetsRow_iff {w : CmdWord} {o : Opc} :
    w &&& Machine.rowMask o = Machine.rowMatch o ↔ opcOf w = some o ∧ mustBeZeroClear w o = true := by
  refine ⟨fun h => ?_, fun h => (mustBeZeroClear_iff h.1).mp h.2⟩
  have hopc : opcOf w = some o := by
    have hfield := congrArg opcField h
    rw [opcOf_eq_some]
    cases o <;> simpa [opcField, Machine.rowMask, Machine.rowMatch, BitVec.extractLsb'_and,
      and_of_eq_allOnes] using hfield
  exact ⟨hopc, (mustBeZeroClear_iff hopc).mpr h⟩

theorem decodeCommand_of_meetsRow {w : CmdWord} {o : Opc} (h : w &&& Machine.rowMask o = Machine.rowMatch o)
    (p : List Byte) : decodeCommand w p = operands w p o := by
  obtain ⟨ho, hz⟩ := meetsRow_iff.mp h
  simp [decodeCommand, ho, hz]

/-- A decoded word meets the row of its opcode, and the instruction has its operands. -/
theorem decodeCommand_ok {w : CmdWord} {p : List Byte} {i : Instr} (h : decodeCommand w p = .ok i) :
    ∃ o, w &&& Machine.rowMask o = Machine.rowMatch o ∧ operands w p o = .ok i := by
  cases ho : opcOf w with
  | none => simp [decodeCommand, ho] at h
  | some o =>
    cases hz : mustBeZeroClear w o
    · simp [decodeCommand, ho, hz] at h
    · have hrow := meetsRow_iff.mpr ⟨ho, hz⟩
      exact ⟨o, hrow, decodeCommand_of_meetsRow hrow p ▸ h⟩

@[simp] theorem decide_bit_eq_one (b : Bool) : decide (bit b = 1#1) = b := by cases b <;> rfl

theorem bit_decide_eq_one (x : BitVec 1) : bit (decide (x = 1#1)) = x := by
  obtain rfl | rfl := BitVec.eq_zero_or_eq_one x <;> rfl

@[simp] theorem ite_qBit_eq_one (q : QId) : (if qBit q = 1#1 then QId.s2r else .r2s) = q := by cases q <;> rfl

theorem qBit_qField (w : CmdWord) : qBit (qField w) = w.extractLsb' 48 1 := by
  obtain h | h := BitVec.eq_zero_or_eq_one (w.extractLsb' 48 1) <;> simp [qField, h, qBit]

/-- The encoding of a well-formed command decodes to it: it meets its row, and each operand is read from its field. -/
theorem decodeCommand_encode {cfg : Config} {i : Instr} {w : CmdWord} {p : List Byte} (hi : i.wf = true)
    (h : encode cfg i = .command w p) : decodeCommand w p = .ok i := by
  cases i <;> cases h
  case rxByte b rdy =>
    rw [decodeCommand_of_meetsRow (o := .rxByte) (Laws.RowPattern.rxByte b rdy)]
    simp [operands, BitVec.extractLsb'_or]
  case dfrReset => exact decodeCommand_of_meetsRow (o := .dfrReset) Laws.RowPattern.dfrReset _
  case txMsg kind var size =>
    have hsize := of_decide_eq_true hi
    rw [decodeCommand_of_meetsRow (o := .txMsg) (Laws.RowPattern.txMsg kind var size p)]
    simp [operands, sizeField, BitVec.extractLsb'_or, hsize]
  case enq q len handle =>
    rw [decodeCommand_of_meetsRow (o := .enq) (Laws.RowPattern.enq q len handle)]
    simp [operands, qField, BitVec.extractLsb'_or]
  case deq q =>
    rw [decodeCommand_of_meetsRow (o := .deq) (Laws.RowPattern.deq q)]
    simp [operands, qField, BitVec.extractLsb'_or]
  case rdState => exact decodeCommand_of_meetsRow (o := .rdState) Laws.RowPattern.rdState _
  case hwReset => exact decodeCommand_of_meetsRow (o := .hwReset) Laws.RowPattern.hwReset _

/-- A word that agrees with another on the fields of a command is that word. -/
theorem command_of_agree {w w' : CmdWord} (o : Opc) (p : List Byte) (h : agree w' w 0 (fieldWidths o)) :
    Words.command w' p = .command w p :=
  congrArg (Words.command · p) ((eq_iff_agree _ (fieldWidths_sum o)).mpr h)

/-- What a word decodes to encodes to the word: its fields are the operands, the opcode and zeros. -/
theorem encode_of_decodeCommand (cfg : Config) {i : Instr} {w : CmdWord} {p : List Byte}
    (h : decodeCommand w p = .ok i) :
    ∃ p', encode cfg i = .command w p' ∧ (p' = p ∨ (p' = [] ∧ ∀ k v n q, i ≠ .txMsg k v n q)) := by
  obtain ⟨o, hrow, hi⟩ := decodeCommand_ok h
  obtain ⟨ho, hz⟩ := meetsRow_iff.mp hrow
  rw [opcOf_eq_some, opcField] at ho
  have back {j : Instr} {v : CmdWord} (hj : encode cfg j = .command v []) (hv : agree v w 0 (fieldWidths o))
      (hne : ∀ k v n q, j ≠ .txMsg k v n q) :
      ∃ p', encode cfg j = .command w p' ∧ (p' = p ∨ (p' = [] ∧ ∀ k v n q, j ≠ .txMsg k v n q)) :=
    ⟨[], hj.trans (command_of_agree o [] hv), .inr ⟨rfl, hne⟩⟩
  cases o
  case txMsg =>
    simp only [operands] at hi
    split at hi <;> cases hi
    refine ⟨p, command_of_agree .txMsg p ?_, .inl rfl⟩
    simp_all [mustBeZeroClear, BitVec.extractLsb'_or, sizeField]
  case rxByte | dfrReset | enq | deq | rdState | hwReset =>
    cases hi
    refine back rfl ?_ (by simp)
    simp_all [mustBeZeroClear, BitVec.extractLsb'_or, bit_decide_eq_one, qBit_qField]

/-! ### Header words (30_encoding.md R127) -/

theorem headerWord_eq (k v : Byte) (n : BitVec 16) : headerWord k v n =
    k.setWidth 32 <<< 24 ||| v.setWidth 32 <<< 16 ||| n.setWidth 32 <<< 0 := by
  simp [headerWord]

@[simp] theorem hdrKindField_headerWord (k v : Byte) (n : BitVec 16) : hdrKindField (headerWord k v n) = k := by
  simp [hdrKindField, headerWord_eq, BitVec.extractLsb'_or, extractLsb'_placed_same, extractLsb'_placed_other,
    - BitVec.shiftLeft_zero]

@[simp] theorem hdrVarField_headerWord (k v : Byte) (n : BitVec 16) : hdrVarField (headerWord k v n) = v := by
  simp [hdrVarField, headerWord_eq, BitVec.extractLsb'_or, extractLsb'_placed_same, extractLsb'_placed_other,
    - BitVec.shiftLeft_zero]

@[simp] theorem hdrSizeField_headerWord (k v : Byte) (n : BitVec 16) : hdrSizeField (headerWord k v n) = n := by
  simp [hdrSizeField, headerWord_eq, BitVec.extractLsb'_or, extractLsb'_placed_same, extractLsb'_placed_other,
    - BitVec.shiftLeft_zero]

/-- A header word is determined by its fields. -/
theorem headerWord_fields (w : HdrWord) : headerWord (hdrKindField w) (hdrVarField w) (hdrSizeField w) = w := by
  have hkind := hdrKindField_headerWord (hdrKindField w) (hdrVarField w) (hdrSizeField w)
  have hvar := hdrVarField_headerWord (hdrKindField w) (hdrVarField w) (hdrSizeField w)
  have hsize := hdrSizeField_headerWord (hdrKindField w) (hdrVarField w) (hdrSizeField w)
  exact (eq_iff_agree [16, 8, 8] rfl).mpr ⟨hsize, hvar, hkind, trivial⟩

/-- A wire row with the header it stands for and the consumer's answer it carries (30_encoding.md R127; log 7). -/
inductive WireRow : Instr → Kind → Byte → BitVec 16 → Bool → Prop
  | deviceInfoV2 (v : Byte) : WireRow (.deviceInfoV2 v) .deviceInfoV2 v 6 false
  | clientConfigV2 (v : Byte) (n : BitVec 16) : WireRow (.clientConfigV2 v n) .clientConfigV2 v n false
  | packetV2 (v : Byte) (n : BitVec 16) (rdy : Bool) : WireRow (.packetV2 v n rdy) .packetV2 v n rdy
  | scanStart (v : Byte) : WireRow (.scanStart v) .scanStart v 0 false
  | scanStop (v : Byte) : WireRow (.scanStop v) .scanStop v 0 false
  | scanApCnt (v : Byte) : WireRow (.scanApCnt v) .scanApCnt v 0 false
  | scanApGetReq (v : Byte) : WireRow (.scanApGetReq v) .scanApGet v 0 false
  | scanApGetRsp (v : Byte) : WireRow (.scanApGetRsp v) .scanApGet v 33 false

/-- The two answers of the header decoder: the wire row of an accepted kind and length, or the invalid header. -/
theorem decodeHeader_cases (cfg : Config) (w : HdrWord) (rdy : Bool) :
    (Machine.accept cfg (hdrKindField w) (hdrSizeField w) = true ∧
      ∃ i k r, decodeHeader cfg w rdy = .ok i ∧ WireRow i k (hdrVarField w) (hdrSizeField w) r ∧
        hdrKindField w = cfg.kindCode.code k ∧ (k = .packetV2 → r = rdy)) ∨
    (Machine.accept cfg (hdrKindField w) (hdrSizeField w) = false ∧
      decodeHeader cfg w rdy = .error (.invalidHeader (hdrKindField w) (hdrVarField w) (hdrSizeField w))) := by
  unfold decodeHeader Machine.accept
  generalize hdrKindField w = b, hdrVarField w = v, hdrSizeField w = n
  simp only [KindCodes.code]
  by_cases h0 : b = cfg.kindCode.deviceInfoV2
  · by_cases hn : n = 6
    · subst hn
      exact .inl ⟨by simp_all, _, _, _, by simp_all, .deviceInfoV2 v, h0, nofun⟩
    · exact .inr (by simp_all)
  by_cases h1 : b = cfg.kindCode.clientConfigV2
  · by_cases hn : 10 ≤ n.toNat ∧ n.toNat ≤ 64
    · exact .inl ⟨by simp_all, _, _, _, by simp_all, .clientConfigV2 v n, h1, nofun⟩
    · exact .inr (by simp_all)
  by_cases h2 : b = cfg.kindCode.packetV2
  · exact .inl ⟨by simp_all, _, _, _, by simp_all, .packetV2 v n rdy, h2, fun _ => rfl⟩
  by_cases h3 : b = cfg.kindCode.scanStart
  · by_cases hn : n = 0
    · subst hn
      exact .inl ⟨by simp_all, _, _, _, by simp_all, .scanStart v, h3, nofun⟩
    · exact .inr (by simp_all)
  by_cases h4 : b = cfg.kindCode.scanStop
  · by_cases hn : n = 0
    · subst hn
      exact .inl ⟨by simp_all, _, _, _, by simp_all, .scanStop v, h4, nofun⟩
    · exact .inr (by simp_all)
  by_cases h5 : b = cfg.kindCode.scanApCnt
  · by_cases hn : n = 0
    · subst hn
      exact .inl ⟨by simp_all, _, _, _, by simp_all, .scanApCnt v, h5, nofun⟩
    · exact .inr (by simp_all)
  by_cases h6 : b = cfg.kindCode.scanApGet
  · by_cases hn : n = 0
    · subst hn
      exact .inl ⟨by simp_all, _, _, _, by simp_all, .scanApGetReq v, h6, nofun⟩
    · by_cases hn' : n = 33
      · subst hn'
        exact .inl ⟨by simp_all, _, _, _, by simp_all, .scanApGetRsp v, h6, nofun⟩
      · exact .inr (by simp_all)
  · exact .inr (by simp_all)


/-! ### The acceptance table (40_vocabulary.md R150) -/

/-- The seven codes of well-formed parameters are distinct (00_scope.md R7). -/
theorem code_injective {cfg : Config} (h : cfg.wf = true) : Function.Injective cfg.kindCode.code := by
  have hnodup : cfg.kindCode.toList.Nodup := by
    simp only [Config.wf, Bool.and_eq_true, decide_eq_true_eq] at h
    exact h.1.1
  intro k k' hk
  cases k <;> cases k' <;> simp_all [KindCodes.toList, KindCodes.code]

/-- The lengths a kind has. -/
def Kind.hasLength (n : BitVec 16) : Kind → Prop
  | .deviceInfoV2 => n.toNat = 6
  | .clientConfigV2 => 10 ≤ n.toNat ∧ n.toNat ≤ 64
  | .packetV2 => True
  | .scanStart | .scanStop | .scanApCnt => n.toNat = 0
  | .scanApGet => n.toNat = 0 ∨ n.toNat = 33

theorem accept_code {cfg : Config} (h : cfg.wf = true) (k : Kind) (n : BitVec 16) :
    Machine.accept cfg (cfg.kindCode.code k) n = true ↔ k.hasLength n := by
  cases k <;> simp [Machine.accept, (code_injective h).eq_iff, Kind.hasLength, ← BitVec.toNat_inj]

/-- Only a kind's code is accepted. -/
theorem exists_code_of_accept {cfg : Config} {b : Byte} {n : BitVec 16} (h : Machine.accept cfg b n = true) :
    ∃ k, b = cfg.kindCode.code k := by
  unfold Machine.accept at h
  split_ifs at h <;> exact ⟨_, ‹_›⟩

theorem accept_iff {cfg : Config} (h : cfg.wf = true) (b : Byte) (n : BitVec 16) :
    Machine.accept cfg b n = true ↔ ∃ k : Kind, b = cfg.kindCode.code k ∧ k.hasLength n := by
  constructor
  · intro hb
    obtain ⟨k, rfl⟩ := exists_code_of_accept hb
    exact ⟨k, rfl, (accept_code h k n).mp hb⟩
  · rintro ⟨k, rfl, hk⟩
    exact (accept_code h k n).mpr hk

theorem Kind.exists_iff {p : Kind → Prop} : (∃ k, p k) ↔ p .deviceInfoV2 ∨ p .clientConfigV2 ∨ p .packetV2 ∨
    p .scanStart ∨ p .scanStop ∨ p .scanApCnt ∨ p .scanApGet := by
  constructor
  · rintro ⟨k, hk⟩
    cases k <;> simp [hk]
  · rintro (h | h | h | h | h | h | h) <;> exact ⟨_, h⟩

/-! ### Wire rows and their header words -/

/-- An instruction of the command port: every one that is no wire row. -/
def Instr.isCommand : Instr → Bool
  | .rxByte _ _ | .dfrReset | .txMsg _ _ _ _ | .enq _ _ _ | .deq _ | .rdState | .hwReset => true
  | .deviceInfoV2 _ | .clientConfigV2 _ _ | .packetV2 _ _ _ | .scanStart _ | .scanStop _ | .scanApCnt _
  | .scanApGetReq _ | .scanApGetRsp _ => false

theorem isCommand_of_decodeCommand {w : CmdWord} {p : List Byte} {i : Instr} (h : decodeCommand w p = .ok i) :
    i.isCommand = true := by
  obtain ⟨o, -, hi⟩ := decodeCommand_ok h
  cases o
  case txMsg =>
    simp only [operands] at hi
    split at hi <;> cases hi
    rfl
  all_goals
    cases hi
    rfl

theorem encode_wireRow (cfg : Config) {i : Instr} {k : Kind} {v : Byte} {n : BitVec 16} {r : Bool}
    (h : WireRow i k v n r) : encode cfg i = .header (headerWord (cfg.kindCode.code k) v n) r := by
  cases h <;> rfl

theorem wireRow_of_encode {cfg : Config} {i : Instr} {w : HdrWord} {r : Bool} (h : encode cfg i = .header w r) :
    ∃ k v n, WireRow i k v n r ∧ w = headerWord (cfg.kindCode.code k) v n := by
  cases i <;> cases h
  case deviceInfoV2 v => exact ⟨_, _, _, .deviceInfoV2 v, rfl⟩
  case clientConfigV2 v n => exact ⟨_, _, _, .clientConfigV2 v n, rfl⟩
  case packetV2 v n => exact ⟨_, _, _, .packetV2 v n _, rfl⟩
  case scanStart v => exact ⟨_, _, _, .scanStart v, rfl⟩
  case scanStop v => exact ⟨_, _, _, .scanStop v, rfl⟩
  case scanApCnt v => exact ⟨_, _, _, .scanApCnt v, rfl⟩
  case scanApGetReq v => exact ⟨_, _, _, .scanApGetReq v, rfl⟩
  case scanApGetRsp v => exact ⟨_, _, _, .scanApGetRsp v, rfl⟩

/-- A header and the consumer's answer have one wire row. -/
theorem WireRow.unique {i j : Instr} {k : Kind} {v : Byte} {n : BitVec 16} {r r' : Bool} (h : WireRow i k v n r)
    (h' : WireRow j k v n r') (hr : k = .packetV2 → r' = r) : j = i := by
  cases h <;> cases h' <;> simp_all

/-- A well-formed wire row's length is one of its kind's. -/
theorem WireRow.hasLength {i : Instr} {k : Kind} {v : Byte} {n : BitVec 16} {r : Bool} (h : WireRow i k v n r)
    (hi : i.wf = true) : k.hasLength n := by
  cases h <;> simp_all [Kind.hasLength, Instr.wf]

theorem decodeHeader_wireRow {cfg : Config} (hcfg : cfg.wf = true) {i : Instr} {k : Kind} {v : Byte} {n : BitVec 16}
    {r : Bool} (h : WireRow i k v n r) (hi : i.wf = true) :
    decodeHeader cfg (headerWord (cfg.kindCode.code k) v n) r = .ok i := by
  have haccept := (accept_code hcfg k n).mpr (h.hasLength hi)
  obtain ⟨-, j, k', r', hdecode, hrow, hcode, hr⟩ | ⟨hreject, -⟩ :=
    decodeHeader_cases cfg (headerWord (cfg.kindCode.code k) v n) r
  · simp only [hdrKindField_headerWord, hdrVarField_headerWord, hdrSizeField_headerWord] at hrow hcode
    obtain rfl := code_injective hcfg hcode
    rw [hdecode, h.unique hrow hr]
  · simp [haccept] at hreject

/-- What a header word decodes to encodes to the word. -/
theorem encode_of_decodeHeader {cfg : Config} {w : HdrWord} {rdy : Bool} {i : Instr}
    (h : decodeHeader cfg w rdy = .ok i) :
    ∃ r, encode cfg i = .header w r ∧ (r = rdy ∨ ∀ v n q, i ≠ .packetV2 v n q) := by
  obtain ⟨-, j, k, r, hdecode, hrow, hcode, hr⟩ | ⟨-, hreject⟩ := decodeHeader_cases cfg w rdy
  · obtain rfl : j = i := by simpa [hdecode] using h
    refine ⟨r, ?_, ?_⟩
    · rw [encode_wireRow cfg hrow, ← hcode, headerWord_fields]
    · by_cases hk : k = .packetV2
      · exact .inl (hr hk)
      · exact .inr fun v n q hi => by subst hi; cases hrow; exact hk rfl
  · simp [hreject] at h

/-! ### The obligations -/

/-- Settles O1: a command's word is decoded field by field, a wire row's by its kind's code and its length. -/
theorem decodeInvertsEncode : Obligations.DecodeInvertsEncode := by
  intro cfg i hcfg hi
  cases h : encode cfg i with
  | command w p => simp [decode, decodeCommand_encode hi h]
  | header w r =>
    obtain ⟨k, v, n, hrow, rfl⟩ := wireRow_of_encode h
    exact decodeHeader_wireRow hcfg hrow hi

/-- Settles O2: the fields of an accepted word are those its instruction encodes to. -/
theorem decodedWordEncodesBack : Obligations.DecodedWordEncodesBack := by
  refine ⟨fun cfg w p i h => ?_, fun cfg w rdy i h => encode_of_decodeHeader h⟩
  cases hd : decodeCommand w p with
  | ok j =>
    obtain rfl : j = i := by simpa [decode, hd] using h
    exact encode_of_decodeCommand cfg hd
  | error c => simp [decode, hd] at h

/-- Settles O3: the decoder evaluated on each word. -/
theorem specWordsDecode : Obligations.SpecWordsDecode := by
  exact ⟨rfl, rfl, rfl, rfl, rfl, rfl, rfl, rfl, rfl, rfl, rfl⟩

/-- Settles O4: the header decoder answers a wire row or the invalid header, as the pair is accepted or not. -/
theorem headerDecodesIffAccepted : Obligations.HeaderDecodesIffAccepted := by
  intro cfg k v n rdy
  obtain ⟨haccept, i, -, -, hdecode, -⟩ | ⟨hreject, hdecode⟩ := decodeHeader_cases cfg (headerWord k v n) rdy
  · simp_all [decode]
  · simp_all [decode]

/-- Settles O5: an accepted byte is one kind's code, and the length one of that kind's. -/
theorem acceptedLengthsOfEachKind : Obligations.AcceptedLengthsOfEachKind := by
  intro cfg k n h
  rw [accept_iff h, Kind.exists_iff]
  simp only [KindCodes.code, Kind.hasLength, and_true]

end Sys2Proof

/-! PROOFS. The command port (60_exceptions.md R344, R354; 45_queue_bridge.md R295): a taken command is admitted or refused
by the first failing check, and what a step does is what `admission` answers. -/

namespace Sys2Proof.Machine

/-! ### Admission -/

theorem qField_eq (w : CmdWord) : qField w = if w.getLsbD 48 then .s2r else .r2s := by
  have hbit : w.extractLsb' 48 1 = 1 ↔ w.getLsbD 48 = true := by
    simp [BitVec.eq_of_getLsbD_eq_iff]
  simp only [qField, hbit]

theorem mayIssue_iff {a : Agent} {w : CmdWord} {o : Opc} : mayIssue a w o = true ↔ inDomain a w o := by
  cases o
  case enq | deq =>
    rw [inDomain, mayIssue, qField_eq]
    cases w.getLsbD 48 <;> simp
  all_goals simp [mayIssue, inDomain]

theorem admission_reserved {a : Agent} {c : Command} (h : ∀ o, c.word.toNat / 2 ^ 56 ≠ opcNumber o) :
    admission a c = .error .reservedOpcode := by
  simp [admission, opcOf_eq_none h]

theorem admission_wrongDomain {a : Agent} {c : Command} {o : Opc} (ho : opcOf c.word = some o)
    (h : ¬ inDomain a c.word o) : admission a c = .error .wrongDomain := by
  simp [admission, ho, mt mayIssue_iff.mp h]

theorem admission_inDomain {a : Agent} {c : Command} {o : Opc} (ho : opcOf c.word = some o)
    (h : inDomain a c.word o) : admission a c = decodeCommand c.word c.sideband := by
  simp [admission, ho, mayIssue_iff.mpr h]

theorem decodeCommand_reservedBits {w : CmdWord} {p : List Byte} {o : Opc} (ho : opcOf w = some o)
    (h : w &&& rowMask o ≠ rowMatch o) : decodeCommand w p = .error .reservedBits := by
  simp [decodeCommand, ho, mt (mustBeZeroClear_iff ho).mp h]

theorem sizeField_toNat (w : CmdWord) : (sizeField w).toNat = w.toNat % 2 ^ 16 := by
  simp [sizeField]

/-- Only the sideband's length can refuse a word that meets its row (30_encoding.md R120). -/
theorem exists_operands {w : CmdWord} {p : List Byte} {o : Opc}
    (h : o = .txMsg → p.length = (sizeField w).toNat) : ∃ i, operands w p o = .ok i := by
  cases o <;> simp_all [operands]

/-! ### What a step does with its turn -/

@[simp] theorem turns_heldDeq (s : State) (ts : List Agent) (a : Agent) :
    ({ s with turns := ts } : State).heldDeq a = s.heldDeq a := by cases a <;> rfl

@[simp] theorem turns_pending (s : State) (ts : List Agent) (a : Agent) :
    ({ s with turns := ts } : State).pending a = s.pending a := by cases a <;> rfl

@[simp] theorem turns_queue (s : State) (ts : List Agent) (q : QId) :
    ({ s with turns := ts } : State).queue q = s.queue q := by cases q <;> rfl

section Turn

variable {s : State} {a : Agent} {ts : List Agent} (hturn : s.turns = a :: ts)
include hturn

theorem fetch_command (hfree : s.heldDeq a = none) {c : Command} {cs : List Command} (hc : s.pending a = c :: cs) :
    fetch s = ({ s with turns := ts }.setPending a cs, some (admission a c)) := by
  simp [fetch, hturn, fetchFor, hfree, hc]

theorem fetch_idle (hfree : s.heldDeq a = none) (hc : s.pending a = []) :
    fetch s = ({ s with turns := ts }, none) := by
  simp [fetch, hturn, fetchFor, hfree, hc]

theorem fetch_held {q : QId} (hheld : s.heldDeq a = some q) :
    fetch s = ({ s with turns := ts }, if s.queue q = [] then none else some (.ok (.deq q))) := by
  by_cases hq : s.queue q = [] <;> simp [fetch, hturn, fetchFor, hheld, hq]

end Turn

section Taken

variable {s t : State} {a : Agent} {c : Command}

theorem TakesCommand.fetch (h : TakesCommand s a c t) : fetch s = (t, some (admission a c)) := by
  rw [fetch_command h.turn h.free h.oldest, ← h.rest]

theorem TakesCommand.step_ok (h : TakesCommand s a c t) {i : Instr} (hi : admission a c = .ok i) :
    step s = exec i t := by
  simp [step, h.fetch, hi]

theorem TakesCommand.step_error (h : TakesCommand s a c t) {e : RefuseCode} (he : admission a c = .error e) :
    step s = .next { t with refused := insertOnce e s.refused } := by
  have hrefused : t.refused = s.refused := by rw [h.rest]; simp
  simp [step, h.fetch, he, State.refuse, hrefused]

end Taken

/-! ### The obligations -/

/-- Settles O6: the admission of a command in its domain is its decoding. -/
theorem stepRunsDecodedInstruction : Obligations.StepRunsDecodedInstruction := by
  intro s t a c o i htakes ho hdomain hdecode
  have hcommand : decodeCommand c.word c.sideband = .ok i := by
    cases hd : decodeCommand c.word c.sideband <;> simp_all [decode]
  refine htakes.step_ok ?_
  rw [admission_inDomain (opcOf_eq_some_iff_number.mpr ho) hdomain, hcommand]

/-- Settles O7: each clause is one answer of the admission. -/
theorem refusalsInOrder : Obligations.RefusalsInOrder := by
  intro s t a c htakes
  refine ⟨fun hnone => htakes.step_error (admission_reserved hnone), fun o hnumber => ?_⟩
  have ho : opcOf c.word = some o := opcOf_eq_some_iff_number.mpr hnumber
  refine ⟨fun hdomain => htakes.step_error (admission_wrongDomain ho hdomain), fun hdomain hbits => ?bits,
    fun hdomain hrow hopc hlen => ?length, fun hdomain hrow hlen => ?passes⟩
  case bits =>
    exact htakes.step_error ((admission_inDomain ho hdomain).trans (decodeCommand_reservedBits ho hbits))
  case length =>
    subst hopc
    refine htakes.step_error ((admission_inDomain ho hdomain).trans ((decodeCommand_of_meetsRow hrow _).trans ?_))
    rw [operands, sizeField_toNat, if_neg hlen]
  case passes =>
    obtain ⟨i, hi⟩ := exists_operands (w := c.word) (p := c.sideband) (o := o) fun h => by rw [hlen h, sizeField_toNat]
    have hdecode : decodeCommand c.word c.sideband = .ok i := (decodeCommand_of_meetsRow hrow _).trans hi
    exact ⟨i, by simp [decode, hdecode], htakes.step_ok ((admission_inDomain ho hdomain).trans hdecode)⟩

/-- Settles O8: the turn of a held agent fetches its DEQ or, while the queue is empty, nothing. -/
theorem heldDeqWaitsThenCompletes : Obligations.HeldDeqWaitsThenCompletes := by
  intro s a q ts hturn hheld
  refine ⟨fun hq => by simp [step, fetch_held hturn hheld, hq], fun e es hq => ?_⟩
  simp [step, fetch_held hturn hheld, exec, execDeq, hq]

/-- Settles O9: without a turn, or without a command in it, nothing is fetched. -/
theorem idleBlockKeepsItsState : Obligations.IdleBlockKeepsItsState := by
  refine fun s => ⟨fun hturns => by simp [step, fetch, hturns], fun a ts hturn hfree hpending => ?_⟩
  simp [step, fetch_idle hturn hfree hpending]

end Sys2Proof.Machine

/-! PROOFS. CRC-32 as a fold (41_crc32.md R181, R182) and TX_MSG (42_framer.md R201 to R203). -/

namespace Sys2Proof.Machine

/-! ### CRC-32 -/

theorem crc32_append (c : CrcAlgorithm) (a b : List Byte) : crc32 c (a ++ b) = b.foldl (crcFold c) (crc32 c a) :=
  List.foldl_append

/-- Settles O11: the fold of one byte more, and the check value by computation. -/
theorem crcOfASequence : Obligations.CrcOfASequence := by
  refine ⟨fun _ => rfl, fun c s b => crc32_append c s [b], ?check⟩
  case check => simp [crc32, crcFold, crcFoldIsoHdlc, crcShift]

/-- Settles O12: a fold over two sequences. -/
theorem crcIsIncremental : Obligations.CrcIsIncremental := crc32_append

/-! ### TX_MSG -/

/-- Only the first 8 bytes of a payload make its Intron. -/
theorem intronOf_take (p : List Byte) : intronOf (p.take 8) = intronOf p := by
  simp [intronOf, List.getD_eq_getElem?_getD]

section TxMsg

variable {s : State} {k v : Byte} {n : BitVec 16} {p : List Byte}

theorem exec_txMsg_rejected (h : accept s.cfg k n = false) :
    exec (.txMsg k v n p) s = .next (s.emit (.txReject k v n)) := if_pos h

theorem exec_txMsg_config (h : accept s.cfg k n = true) (hk : k = s.cfg.kindCode.clientConfigV2) :
    exec (.txMsg k v n p) s =
      .next (({ s with intron := intronOf p }.emit (.txBytes (frame s.cfg.crc s.intron k v p))).emit
        (.intronSet (intronOf p) .tx)) := by
  subst hk
  simp [exec, execTxMsg, h, switchIntron, KindCodes.code, State.emit]

theorem exec_txMsg_other (h : accept s.cfg k n = true) (hk : k ≠ s.cfg.kindCode.clientConfigV2) :
    exec (.txMsg k v n p) s = .next (s.emit (.txBytes (frame s.cfg.crc s.intron k v p))) := by
  simp [exec, execTxMsg, h, switchIntron, KindCodes.code, hk]

end TxMsg

/-- Settles O14: rejected, sent, or sent and followed by the Intron switch. -/
theorem txMsgResult : Obligations.TxMsgResult := by
  refine fun s k v n p _ => ⟨fun h => exec_txMsg_rejected h, fun h hk => exec_txMsg_other h hk, fun h hk => ?_⟩
  rw [exec_txMsg_config h hk, intronOf_take]
  simp [State.emit]

/-- Settles O15: PACKET_V2 has every length and does not switch the Intron; SCAN_START has only length 0. -/
theorem packetIsNeverRejected : Obligations.PacketIsNeverRejected := by
  intro s v p hcfg hp
  constructor
  · have haccept := (accept_code hcfg .packetV2 (BitVec.ofNat 16 p.length)).mpr trivial
    have hkind : s.cfg.kindCode.packetV2 ≠ s.cfg.kindCode.clientConfigV2 := fun h =>
      absurd (code_injective hcfg (a₁ := .packetV2) (a₂ := .clientConfigV2) h) nofun
    refine ⟨_, exec_txMsg_other haccept hkind, ?_, rfl⟩
    simp [serialOutput, Event.outBytes]
  · intro hne
    have hlen : (BitVec.ofNat 16 p.length).toNat ≠ 0 := by
      have := List.length_pos_iff.mpr hne
      rw [BitVec.toNat_ofNat]
      omega
    have hreject := mt (accept_code hcfg .scanStart (BitVec.ofNat 16 p.length)).mp hlen
    exact exec_txMsg_rejected (Bool.eq_false_iff.mpr hreject)

end Sys2Proof.Machine

/-! PROOFS. The queue bridge (45_queue_bridge.md): ENQ and DEQ as whole next states, the two queues apart, and no
handle in two entries. -/

namespace Sys2Proof.Machine

theorem handleInUse_iff (s : State) (h : BitVec 32) : s.handleInUse h = true ↔ h ∈ s.handles := by
  simp [State.handleInUse, State.handles]

/-! ### ENQ and DEQ -/

/-- ENQ in the terms of the handles in use: reuse, appended, or dropped. -/
theorem exec_enq_cases (q : QId) (l : BitVec 16) (h : BitVec 32) (s : State) :
    (h ∈ s.handles ∧ exec (.enq q l h) s = .next (s.recordFault (.handleReuse q h))) ∨
    (h ∉ s.handles ∧ (s.queue q).length < s.cfg.qcap ∧
      exec (.enq q l h) s = .next ((s.setQueue q (s.queue q ++ [⟨l, h⟩])).emit (.qEnq q l h))) ∨
    (h ∉ s.handles ∧ s.cfg.qcap ≤ (s.queue q).length ∧ exec (.enq q l h) s = .next (s.emit (.qDrop q l h))) := by
  rw [← handleInUse_iff, Bool.not_eq_true]
  obtain ⟨huse, k⟩ | ⟨huse, hroom, k⟩ | ⟨huse, hfull, k⟩ := enqueue_cases q l h s
  · exact .inl ⟨huse, congrArg (finish s) k⟩
  · exact .inr (.inl ⟨huse, hroom, congrArg (finish s) k⟩)
  · exact .inr (.inr ⟨huse, hfull, congrArg (finish s) k⟩)

/-- Settles O39: the three cases of ENQ exclude each other. -/
theorem enqResult : Obligations.EnqResult := by
  intro s q l h
  obtain ⟨huse, k⟩ | ⟨huse, hroom, k⟩ | ⟨huse, hfull, k⟩ := exec_enq_cases q l h s
  · exact ⟨fun _ => k, fun hfree => absurd huse hfree, fun hfree => absurd huse hfree⟩
  · exact ⟨fun hused => absurd hused huse, fun _ _ => k, fun _ hfull => absurd hroom (by omega)⟩
  · exact ⟨fun hused => absurd hused huse, fun _ hroom => absurd hroom (by omega), fun _ _ => k⟩

theorem exec_deq_nil {q : QId} {s : State} (h : s.queue q = []) : exec (.deq q) s = .next (s.setHeld q true) := by
  simp [exec, execDeq, h]

theorem exec_deq_cons {q : QId} {s : State} {e : Entry} {es : List Entry} (h : s.queue q = e :: es) :
    exec (.deq q) s = .next (((s.setQueue q es).setHeld q false).emit (.qDeq q e.len e.handle)) := by
  simp [exec, execDeq, h]

/-- Settles O40: DEQ of each queue, with entries and without. -/
theorem deqResult : Obligations.DeqResult := fun _ =>
  ⟨fun _ _ h => exec_deq_cons (q := .r2s) h, fun _ _ h => exec_deq_cons (q := .s2r) h, fun h => exec_deq_nil (q := .r2s) h,
    fun h => exec_deq_nil (q := .s2r) h⟩

/-! ### The queues apart (45_queue_bridge.md R298) -/

/-- Everything an instruction on another queue leaves alone: queue `p`, its waiting DEQ, the serial domain's registers and
the refusals. -/
structure LeavesQueue (p : QId) (s t : State) : Prop where
  queue : t.queue p = s.queue p
  held : t.held p = s.held p
  serial : SameSerialState s t
  refused : t.refused = s.refused

theorem exec_enq_leavesQueue {p q : QId} (hpq : p ≠ q) {l : BitVec 16} {h : BitVec 32} {s t : State}
    (ht : exec (.enq q l h) s = .next t) : LeavesQueue p s t := by
  obtain ⟨-, k⟩ | ⟨-, -, k⟩ | ⟨-, -, k⟩ := exec_enq_cases q l h s <;> rw [k] at ht <;> cases ht
  · exact ⟨by cases p <;> rfl, by cases p <;> rfl, by constructor <;> rfl, rfl⟩
  · exact ⟨by simp [State.setQueue_other s hpq], by simp, by constructor <;> simp, by simp⟩
  · exact ⟨by simp, by simp, by constructor <;> rfl, rfl⟩

theorem exec_deq_leavesQueue {p q : QId} (hpq : p ≠ q) {s t : State} (ht : exec (.deq q) s = .next t) :
    LeavesQueue p s t := by
  cases hq : s.queue q with
  | nil =>
    rw [exec_deq_nil hq] at ht
    cases ht
    exact ⟨by simp, State.setHeld_other s hpq _, by constructor <;> simp, by simp⟩
  | cons e es =>
    rw [exec_deq_cons hq] at ht
    cases ht
    exact ⟨by simp [State.setQueue_other s hpq], by simp [State.setHeld_other _ hpq], by constructor <;> simp, by simp⟩

/-- The state with queue `p`'s entries and waiting DEQ replaced. -/
def State.withQueue (p : QId) (es : List Entry) (b : Bool) (s : State) : State := (s.setQueue p es).setHeld p b

section WithQueue

variable {p q : QId} (hpq : p ≠ q) (es : List Entry) (b : Bool) (s : State)

@[simp] theorem withQueue_cfg : (s.withQueue p es b).cfg = s.cfg := by simp [State.withQueue]

theorem recordFault_withQueue (f : FaultCode) :
    (s.withQueue p es b).recordFault f = (s.recordFault f).withQueue p es b := by cases p <;> rfl

theorem emit_withQueue (e : Event) : (s.withQueue p es b).emit e = (s.emit e).withQueue p es b := by cases p <;> rfl

include hpq

theorem withQueue_queue : (s.withQueue p es b).queue q = s.queue q := by
  simp [State.withQueue, State.setQueue_other s hpq.symm]

theorem setQueue_withQueue (fs : List Entry) :
    (s.withQueue p es b).setQueue q fs = (s.setQueue q fs).withQueue p es b := by
  cases p <;> cases q
  case r2s.r2s | s2r.s2r => exact absurd rfl hpq
  case r2s.s2r | s2r.r2s => rfl

theorem setHeld_withQueue (c : Bool) : (s.withQueue p es b).setHeld q c = (s.setHeld q c).withQueue p es b := by
  cases p <;> cases q
  case r2s.r2s | s2r.s2r => exact absurd rfl hpq
  case r2s.s2r | s2r.r2s => rfl

theorem exec_enq_withQueue {l : BitVec 16} {h : BitVec 32} {t : State}
    (hmem : h ∈ s.handles ↔ h ∈ (s.withQueue p es b).handles) (ht : exec (.enq q l h) s = .next t) :
    exec (.enq q l h) (s.withQueue p es b) = .next (t.withQueue p es b) := by
  obtain ⟨hreuse, happend, hdrop⟩ := enqResult (s.withQueue p es b) q l h
  obtain ⟨huse, k⟩ | ⟨hfree, hroom, k⟩ | ⟨hfree, hfull, k⟩ := exec_enq_cases q l h s <;> rw [k] at ht <;> cases ht
  · exact (hreuse (hmem.mp huse)).trans (congrArg _ (recordFault_withQueue es b s _))
  · rw [happend (mt hmem.mpr hfree) (by simpa [withQueue_queue hpq] using hroom), withQueue_queue hpq,
      setQueue_withQueue hpq, emit_withQueue]
  · exact (hdrop (mt hmem.mpr hfree) (by simpa [withQueue_queue hpq] using hfull)).trans
      (congrArg _ (emit_withQueue es b s _))

theorem exec_deq_withQueue {t : State} (ht : exec (.deq q) s = .next t) :
    exec (.deq q) (s.withQueue p es b) = .next (t.withQueue p es b) := by
  have hqueue := withQueue_queue hpq es b s
  cases hq : s.queue q with
  | nil =>
    rw [exec_deq_nil hq] at ht
    cases ht
    rw [exec_deq_nil (hqueue.trans hq), setHeld_withQueue hpq]
  | cons e es =>
    rw [exec_deq_cons hq] at ht
    cases ht
    rw [exec_deq_cons (hqueue.trans hq), setQueue_withQueue hpq, setHeld_withQueue hpq, emit_withQueue]

end WithQueue

/-- Settles O41: an instruction on one queue writes nothing of the other, and reads of it only whether HANDLE is in use. -/
theorem queuesAreIndependent : Obligations.QueuesAreIndependent := by
  refine fun s t p q l h hpq => ⟨fun ht => ?frame, fun es b => ⟨fun hmem ht => ?enq, fun ht => ?deq⟩⟩
  case frame =>
    obtain ⟨hqueue, hheld, hserial, hrefused⟩ : LeavesQueue p s t :=
      ht.elim (exec_enq_leavesQueue hpq) (exec_deq_leavesQueue hpq)
    exact ⟨hqueue, hheld, hserial, hrefused⟩
  case enq => exact exec_enq_withQueue hpq es b s hmem ht
  case deq => exact exec_deq_withQueue hpq es b s ht

end Sys2Proof.Machine

/-! PROOFS. Words as numbers: the status words of RD_STATE (46_control.md R320) and the command words of the assembler's
lines (30_encoding.md R125, R126). A field placed above a smaller number adds to it (`fieldAt_or_toNat`). -/

namespace Sys2Proof.Machine

/-! ### Fields as numbers -/

theorem fieldAt_toNat {n lo : Nat} (x : BitVec n) (h : lo + n ≤ 64) : (fieldAt x lo).toNat = x.toNat * 2 ^ lo := by
  have hx : x.toNat * 2 ^ lo < 2 ^ 64 :=
    calc x.toNat * 2 ^ lo < 2 ^ n * 2 ^ lo := Nat.mul_lt_mul_of_pos_right x.isLt (Nat.two_pow_pos lo)
      _ = 2 ^ (lo + n) := by rw [Nat.pow_add, Nat.mul_comm]
      _ ≤ 2 ^ 64 := Nat.pow_le_pow_right (by decide) h
  have hn : x.toNat < 2 ^ 64 := x.isLt.trans_le (Nat.pow_le_pow_right (by decide) (by omega))
  simp only [fieldAt, BitVec.toNat_shiftLeft, BitVec.toNat_setWidth, Nat.shiftLeft_eq]
  rw [Nat.mod_eq_of_lt hn, Nat.mod_eq_of_lt hx]

theorem fieldAt_or_toNat {n lo : Nat} (x : BitVec n) {y : CmdWord} (h : lo + n ≤ 64) (hy : y.toNat < 2 ^ lo) :
    (fieldAt x lo ||| y).toNat = x.toNat * 2 ^ lo + y.toNat := by
  rw [BitVec.toNat_or, fieldAt_toNat x h, ← Nat.shiftLeft_eq, Nat.shiftLeft_add_eq_or_of_lt hy]

/-! ### The status view -/

/-- A one-bit field reads as its flag. -/
theorem getLsbD_of_field {w : CmdWord} {j : Nat} {b : Bool} (h : w.extractLsb' j 1 = bit b) : w.getLsbD j = b := by
  have hbit : (w.extractLsb' j 1).getLsbD 0 = w.getLsbD j := by simp
  rw [← hbit, h]
  cases b <;> rfl

/-- STAT4 as a number, for queues within the bound of R7. -/
theorem stat4_toNat {s : State} (hr : s.r2s.length ≤ 255) (hs : s.s2r.length ≤ 255) :
    (stat4 s).toNat = s.s2r.length * 256 + s.r2s.length := by
  have hcount (q : QId) (h : (s.queue q).length ≤ 255) : (countBits s q).toNat = (s.queue q).length :=
    Nat.mod_eq_of_lt (by omega)
  have hlow := fieldAt_toNat (countBits s .r2s) (lo := 0) (by decide)
  rw [hcount .r2s hr] at hlow
  have hr2s : s.r2s.length * 2 ^ 0 < 2 ^ 8 := by omega
  rw [stat4, BitVec.or_comm, fieldAt_or_toNat _ (by decide) (hlow.trans_lt hr2s), hcount .s2r hs, hlow]
  simp [State.queue]

theorem DState.bits_toNat (d : DState) : d.bits.toNat = dstateNumber d := by cases d <;> rfl

theorem LastResult.bits_toNat (r : LastResult) : r.bits.toNat = lastResultNumber r := by cases r <;> rfl

/-- Settles O44: the fields of STAT0 to STAT4 do not overlap, so each reads back from its bits. -/
theorem rdStateView : Obligations.RdStateView := by
  intro s
  refine ⟨stat0 s, stat1 s, stat2 s, stat3 s, stat4 s, rfl, ?dstate, ?wfill, ?hdrCnt, ?streamed, ?streamOpen,
    ?lastResult, ?faulted, ?hdrKind, ?hdrVar, ?hdrSize, ?payCnt, ?crcAcc, ?crcRx, rfl, rfl, stat4_toNat⟩
  case dstate => simp [stat0, BitVec.extractLsb'_or, DState.bits_toNat]
  case lastResult => simp [stat0, BitVec.extractLsb'_or, LastResult.bits_toNat]
  case streamed => exact getLsbD_of_field (by simp [stat0, BitVec.extractLsb'_or])
  case streamOpen => exact getLsbD_of_field (by simp [stat0, BitVec.extractLsb'_or])
  case faulted =>
    have hbit : (stat0 s).getLsbD 15 = s.faulted := getLsbD_of_field (by simp [stat0, BitVec.extractLsb'_or])
    simp only [hbit, State.faulted, decide_eq_true_eq]
  case wfill | hdrCnt | hdrKind | hdrVar | hdrSize | payCnt => simp [stat0, BitVec.extractLsb'_or]
  case crcAcc | crcRx => simp [stat1, BitVec.extractLsb'_or]

/-! ### HW_RESET and power-on -/

/-- Settles O45: ResetProcedure register by register, and its events in order. -/
theorem hwResetResult : Obligations.HwResetResult := by
  intro s
  simp [exec, execHwReset, resetProcedure, State.emitAll, resetEvents, freeEvents, State.reset]

/-- Settles O46: the reset state and its status words are closed terms. -/
theorem powerOnState : Obligations.PowerOnState := by
  refine ⟨rfl, rfl, rfl, rfl, rfl, rfl, rfl, rfl, rfl, rfl, rfl, rfl, rfl, rfl, rfl, rfl, rfl, rfl, rfl, rfl⟩

/-- Settles O47: the reset state awaits the Intron with every counter 0, and has no entry, event or stored byte. -/
theorem powerOnMeetsInvariants : Obligations.PowerOnMeetsInvariants := by
  have hintron : AwaitingIntronInv State.reset := ⟨rfl, rfl, rfl, rfl, rfl⟩
  have hinv : Inv 0 State.reset :=
    ⟨by decide, Nat.zero_le _, fun _ => hintron, nofun, nofun, nofun, by decide, by decide, by decide, by decide⟩
  exact ⟨hinv, List.nodup_nil, rfl, rfl, fun q => by cases q <;> rfl⟩

/-! ### The assembler's lines -/

theorem fieldAt_zero {n : Nat} (x : BitVec n) : fieldAt x 0 = BitVec.ofNat 64 x.toNat := by
  apply BitVec.eq_of_toNat_eq
  simp [fieldAt]

theorem fieldAt_or_ofNat {n lo m : Nat} (x : BitVec n) (h : lo + n ≤ 64) (hm : m < 2 ^ lo) :
    fieldAt x lo ||| BitVec.ofNat 64 m = BitVec.ofNat 64 (x.toNat * 2 ^ lo + m) := by
  have hlo : 2 ^ lo ≤ 2 ^ 64 := Nat.pow_le_pow_right (by decide) (by omega)
  have hmod : (BitVec.ofNat 64 m).toNat = m := Nat.mod_eq_of_lt (by omega)
  apply BitVec.eq_of_toNat_eq
  rw [fieldAt_or_toNat x h (by rwa [hmod]), hmod, BitVec.toNat_ofNat, Nat.mod_eq_of_lt]
  have := (fieldAt x lo ||| BitVec.ofNat 64 m).isLt
  rwa [fieldAt_or_toNat x h (by rwa [hmod]), hmod] at this

/-- The word of `RX b, rdy`. -/
theorem portCommand_rxByte (cfg : Config) (rdy : Bool) (b : Byte) :
    portCommand cfg (.rxByte b rdy) = some (rxCommand rdy b) := by
  have hb := b.isLt
  have hr : (bit rdy).toNat * 2 ^ 8 = if rdy then 2 ^ 8 else 0 := by cases rdy <;> rfl
  simp only [portCommand, encode, rxCommand]
  rw [BitVec.or_assoc, fieldAt_zero, fieldAt_or_ofNat _ (by decide) (by omega),
    fieldAt_or_ofNat _ (by decide) (by split at hr <;> omega), hr, Nat.add_assoc]
  rfl

/-- The word of `TX` with a payload that fits SIZE. -/
theorem portCommand_txMsg (cfg : Config) (k v : Byte) {p : List Byte} (hp : p.length ≤ 65535) :
    portCommand cfg (.txMsg k v (BitVec.ofNat 16 p.length) p) = some (txCommand k v p) := by
  have hk := k.isLt
  have hv := v.isLt
  have hsize : (BitVec.ofNat 16 p.length).toNat = p.length := Nat.mod_eq_of_lt (by omega)
  simp only [portCommand, encode, txCommand]
  rw [BitVec.or_assoc, BitVec.or_assoc, fieldAt_zero, hsize, fieldAt_or_ofNat _ (by decide) (by omega),
    fieldAt_or_ofNat _ (by decide) (by omega), fieldAt_or_ofNat _ (by decide) (by omega)]
  simp only [Nat.add_assoc]
  rfl

/-- The word of `ENQ`. -/
theorem portCommand_enq (cfg : Config) (q : QId) (len : BitVec 16) (h : BitVec 32) :
    portCommand cfg (.enq q len h) =
      some ⟨BitVec.ofNat 64 (0x04 * 2 ^ 56 + (qBit q).toNat * 2 ^ 48 + len.toNat * 2 ^ 32 + h.toNat), []⟩ := by
  have hq := (qBit q).isLt
  have hl := len.isLt
  have hh := h.isLt
  simp only [portCommand, encode]
  rw [BitVec.or_assoc, BitVec.or_assoc, fieldAt_zero, fieldAt_or_ofNat _ (by decide) (by omega),
    fieldAt_or_ofNat _ (by decide) (by omega), fieldAt_or_ofNat _ (by decide) (by omega)]
  simp only [Nat.add_assoc]
  rfl

/-- A command of the port has a word, and it decodes to the command. -/
theorem portCommand_decodes (cfg : Config) {i : Instr} (hcommand : i.isCommand = true) (hi : i.wf = true) :
    ∃ c, portCommand cfg i = some c ∧ decodeCommand c.word c.sideband = .ok i := by
  cases h : encode cfg i with
  | command w p => exact ⟨⟨w, p⟩, by simp [portCommand, h], decodeCommand_encode hi h⟩
  | header w r => cases i <;> cases h <;> cases hcommand

theorem decode_portCommands (cfg : Config) {is : List Instr} (h : ∀ i ∈ is, i.isCommand = true ∧ i.wf = true) :
    (is.filterMap (portCommand cfg)).map (fun c => decodeCommand c.word c.sideband) = is.map .ok := by
  induction is with
  | nil => rfl
  | cons i is ih =>
    obtain ⟨hcommand, hwf⟩ := h i List.mem_cons_self
    obtain ⟨c, hc, hdecode⟩ := portCommand_decodes cfg hcommand hwf
    simp [hc, hdecode, ih fun j hj => h j (List.mem_cons_of_mem i hj)]

/-- The lines of one RX_BYTE per byte. -/
theorem portCommands_rxByte (cfg : Config) (rdy : Bool) (bs : List Byte) :
    (bs.map fun b => Instr.rxByte b rdy).filterMap (portCommand cfg) = bs.map (rxCommand rdy) := by
  induction bs with
  | nil => rfl
  | cons b bs ih => simp [portCommand_rxByte, ih]

theorem txInstr_command (cfg : Config) (k : KindRef) (v : Byte) {p : List Byte} (hp : p.length ≤ 65535) :
    (txInstr cfg k v p).isCommand = true ∧ (txInstr cfg k v p).wf = true := by
  have hsize : (BitVec.ofNat 16 p.length).toNat = p.length := Nat.mod_eq_of_lt (by omega)
  simp [txInstr, Instr.isCommand, Instr.wf, hsize]

/-- A line expands to well-formed commands, TX under the bound of its payload. -/
theorem expand_commands (cfg : Config) {a : Asm} (ha : ∀ k v p, a = .tx k v p → p.length ≤ 65535) :
    ∀ i ∈ a.expand cfg, i.isCommand = true ∧ i.wf = true := by
  cases a
  case tx k v p => simpa [Asm.expand] using txInstr_command cfg k v (ha k v p rfl)
  case linkup | linkdn => simpa [Asm.expand] using txInstr_command cfg _ _ (p := []) (by decide)
  all_goals simp [Asm.expand, Instr.isCommand, Instr.wf]

/-- A line of one command assembles to that command. -/
theorem assemble_single {cfg : Config} {a : Asm} {i : Instr} {c : Command} (ha : a.expand cfg = [i])
    (hc : portCommand cfg i = some c) : a.assemble cfg = [c] := by
  simp [Asm.assemble, ha, hc]

/-- Settles O38: each line's commands are written out, and a command's word decodes to it. -/
theorem assembledLinesDecode : Obligations.AssembledLinesDecode := by
  refine ⟨fun cfg b rdy => assemble_single rfl (portCommand_rxByte cfg rdy b), fun cfg => ⟨rfl, rfl, rfl, rfl, rfl⟩,
    fun cfg len h => ⟨assemble_single rfl ?enqR2s, assemble_single rfl (portCommand_enq cfg .s2r len h)⟩,
    fun cfg k c v p hp => ⟨assemble_single rfl (portCommand_txMsg cfg _ v hp),
      assemble_single rfl (portCommand_txMsg cfg c v hp)⟩,
    fun cfg bs rdy => portCommands_rxByte cfg rdy bs,
    fun cfg i k c v p rdy => ⟨portCommands_rxByte cfg rdy _, portCommands_rxByte cfg rdy _⟩,
    fun cfg => ⟨assemble_single rfl (portCommand_txMsg cfg _ 1 (p := []) (by decide)),
      assemble_single rfl (portCommand_txMsg cfg _ 0 (p := []) (by decide))⟩,
    fun cfg a ha => decode_portCommands cfg (expand_commands cfg ha)⟩
  case enqR2s => simpa [qBit] using portCommand_enq cfg .r2s len h

end Sys2Proof.Machine

/-! PROOFS. RX_BYTE byte by byte (43_deframer.md R220 to R233): what each byte does in each DSTATE, as an equation on the
whole state. SoftReset of a closed stream is R48's column, so every completion is an equation too. -/

namespace Sys2Proof.Machine

/-! ### RX_BYTE by DSTATE (43_deframer.md R220) -/

section Receive

variable {s : State} (b : Byte) (rdy : Bool)

theorem exec_rxByte_intron (h : s.dstate = .ai) : exec (.rxByte b rdy) s = .next (intronStep b s) := by
  simp [exec, execRxByte, receive, h]

theorem exec_rxByte_header (h : s.dstate = .ah) : exec (.rxByte b rdy) s = finish s (headerStep b rdy s) := by
  simp [exec, execRxByte, receive, h]

theorem exec_rxByte_streamed (h : s.dstate = .rp) (hs : s.streamed = true) :
    exec (.rxByte b rdy) s = .next (streamByte b s) := by
  simp [exec, execRxByte, receive, h, hs]

theorem exec_rxByte_scratch (h : s.dstate = .rp) (hs : s.streamed = false) :
    exec (.rxByte b rdy) s = finish s (scratchByte b s) := by
  simp [exec, execRxByte, receive, h, hs]

end Receive

/-! ### AwaitingIntron (43_deframer.md R221) -/

/-- A byte shifted into a register, as a number. -/
theorem shiftIn_eq_ofNat {n : Nat} (x : BitVec n) (b : Byte) :
    (x <<< 8) ||| b.setWidth n = BitVec.ofNat n (x.toNat * 256 + b.toNat) := by
  have hadd : x.toNat * 256 + b.toNat = x.toNat <<< 8 ||| b.toNat := by
    rw [← Nat.shiftLeft_add_eq_or_of_lt b.isLt, Nat.shiftLeft_eq]
  apply BitVec.eq_of_toNat_eq
  rw [BitVec.toNat_ofNat, hadd, Nat.or_mod_two_pow, BitVec.toNat_or, BitVec.toNat_shiftLeft, BitVec.toNat_setWidth]

theorem winNext_eq_ofNat (w : BitVec 64) (b : Byte) : winNext w b = BitVec.ofNat 64 (w.toNat * 256 + b.toNat) :=
  shiftIn_eq_ofNat w b

theorem intronStep_match {b : Byte} {s : State} (h : fillNext s.wfill = 8 ∧ winNext s.win b = be64 s.intron) :
    intronStep b s =
      { s with
        win := winNext s.win b, wfill := fillNext s.wfill, dstate := .ah, hdrCnt := 0
        crcAcc := crc32 s.cfg.crc (intronBytes s.intron) } := by
  obtain ⟨-, -, k⟩ | ⟨hno, -⟩ := intronStep_cases b s
  · exact k
  · exact absurd h hno

theorem intronStep_no_match {b : Byte} {s : State} (h : ¬ (fillNext s.wfill = 8 ∧ winNext s.win b = be64 s.intron)) :
    intronStep b s = { s with win := winNext s.win b, wfill := fillNext s.wfill } := by
  obtain ⟨hfill, hwin, -⟩ | ⟨-, k⟩ := intronStep_cases b s
  · exact absurd ⟨hfill, hwin⟩ h
  · exact k

/-- Settles O16: IntronStep matches or only moves the window. -/
theorem intronStepResult : Obligations.IntronStepResult := by
  intro s b rdy hd w f
  have hw : winNext s.win b = w := winNext_eq_ofNat s.win b
  rw [exec_rxByte_intron b rdy hd, ← hw]
  exact ⟨fun h => congrArg _ (intronStep_match h), fun h => congrArg _ (intronStep_no_match h)⟩

/-! ### AwaitingHeader (43_deframer.md R222) -/

section HeaderByte

variable {s : State} (b : Byte)

theorem headerByte_kind (h : s.hdrCnt = 0) :
    headerByte b s = { s with hdrKind := b, crcAcc := crcFold s.cfg.crc s.crcAcc b, hdrCnt := 1 } := by
  simp [headerByte, h, foldByte]

theorem headerByte_var (h : s.hdrCnt = 1) :
    headerByte b s = { s with hdrVar := b, crcAcc := crcFold s.cfg.crc s.crcAcc b, hdrCnt := 2 } := by
  simp [headerByte, h, foldByte]

theorem headerByte_sizeHigh (h : s.hdrCnt = 2) :
    headerByte b s =
      { s with hdrSize := b.setWidth 16 <<< 8, crcAcc := crcFold s.cfg.crc s.crcAcc b, hdrCnt := 3 } := by
  simp [headerByte, h, foldByte]

theorem headerByte_sizeLow (h : s.hdrCnt = 3) :
    headerByte b s =
      { s with hdrSize := s.hdrSize ||| b.setWidth 16, crcAcc := crcFold s.cfg.crc s.crcAcc b, hdrCnt := 4 } := by
  simp [headerByte, h, foldByte]

theorem headerByte_checksum (h : 4 ≤ s.hdrCnt.toNat) :
    headerByte b s =
      { s with crcRx := BitVec.ofNat 32 (s.crcRx.toNat * 256 + b.toNat), hdrCnt := s.hdrCnt + 1 } := by
  have hne {n : BitVec 4} (hn : n.toNat < 4) : s.hdrCnt ≠ n := fun he => by rw [he] at h; omega
  simp only [headerByte, if_neg (hne (n := 0) (by decide)), if_neg (hne (n := 1) (by decide)),
    if_neg (hne (n := 2) (by decide)), if_neg (hne (n := 3) (by decide)), shiftIn_eq_ofNat]

/-- A header byte before the last completes nothing. -/
theorem exec_rxByte_headerByte (rdy : Bool) (h : s.dstate = .ah) (hc : s.hdrCnt ≠ 7) :
    exec (.rxByte b rdy) s = .next (headerByte b s) := by
  have hnext : (headerByte b s).hdrCnt ≠ 8 := by
    obtain ⟨k, v, n, acc, rx, hw⟩ := headerByte_writes b s
    rw [hw]
    intro h8
    exact hc (by bv_omega)
  rw [exec_rxByte_header b rdy h, headerStep, if_neg hnext, finish_ok]

/-- The last header byte completes the header. -/
theorem exec_rxByte_headerEnd (rdy : Bool) (h : s.dstate = .ah) (hc : s.hdrCnt = 7) :
    exec (.rxByte b rdy) s =
      finish s (headerComplete rdy
        { s with crcRx := BitVec.ofNat 32 (s.crcRx.toNat * 256 + b.toNat), hdrCnt := 8 }) := by
  rw [exec_rxByte_header b rdy h, headerStep, headerByte_checksum b (by rw [hc]; decide), hc]
  rfl

end HeaderByte

/-- Settles O17: each index has its place. -/
theorem headerBytePlacement : Obligations.HeaderBytePlacement := by
  intro s b rdy hd c
  have step (hc : s.hdrCnt ≠ 7) := exec_rxByte_headerByte b rdy hd hc
  refine ⟨fun h => ?_, fun h => ?_, fun h => ?_, fun h => ?_, fun h4 h6 => ?_⟩
  · rw [step (by simp [h]), headerByte_kind b h]
  · rw [step (by simp [h]), headerByte_var b h]
  · have hsize : b.setWidth 16 <<< 8 = BitVec.ofNat 16 (b.toNat * 256) := by
      apply BitVec.eq_of_toNat_eq
      simp [Nat.shiftLeft_eq]
    rw [step (by simp [h]), headerByte_sizeHigh b h, hsize]
  · have hsize : s.hdrSize ||| b.setWidth 16 = BitVec.ofNat 16 (s.hdrSize.toNat ||| b.toNat) := by
      apply BitVec.eq_of_toNat_eq
      simp
    rw [step (by simp [h]), headerByte_sizeLow b h, hsize]
  · have hcnt : s.hdrCnt + 1 = BitVec.ofNat 4 (s.hdrCnt.toNat + 1) := by
      apply BitVec.eq_of_toNat_eq
      simp
    rw [step (fun h7 => by simp [h7] at h6), headerByte_checksum b h4, hcnt]

/-! ### Completion (43_deframer.md R231 to R234) -/

section Complete

variable {s : State}

theorem deliver_streamed (hd : s.dstate ≠ .dp) (hs : s.streamed = true) :
    deliver s =
      { s.emit (.tunCommit (crcValid s)) with
        streamOpen := false, lastResult := deliveredResult (crcValid s) } := by
  simp [deliver, hd, hs]

theorem deliver_unstreamed (hd : s.dstate ≠ .dp) (hs : s.streamed = false) :
    deliver s = { dispatch (crcValid s) s with lastResult := deliveredResult (crcValid s) } := by
  simp [deliver, hd, hs]

theorem complete_streamed (hd : s.dstate ≠ .dp) (hs : s.streamed = true) :
    complete s =
      softResetColumn
        { s with
          history := s.history ++ [.tunCommit (crcValid s)], lastResult := deliveredResult (crcValid s) } := by
  rw [complete, deliver_streamed hd hs]
  exact softReset_eq_softResetColumn rfl

theorem complete_unstreamed (hd : s.dstate ≠ .dp) (hs : s.streamed = false) (ho : s.streamOpen = false) :
    complete s = softResetColumn { dispatch (crcValid s) s with lastResult := deliveredResult (crcValid s) } := by
  have hopen : (dispatch (crcValid s) s).streamOpen = false := by
    obtain ⟨-, -, k⟩ | ⟨-, k⟩ := dispatch_cases (crcValid s) s <;> rw [k] <;> exact ho
  rw [complete, deliver_unstreamed hd hs]
  exact softReset_eq_softResetColumn hopen

/-- A message that is no valid CLIENTCONFIG_V2 is only dispatched. -/
theorem complete_dispatched (hd : s.dstate ≠ .dp) (hs : s.streamed = false) (ho : s.streamOpen = false)
    (hk : ¬ (s.hdrKind = s.cfg.kindCode.clientConfigV2 ∧ crcValid s = true)) :
    complete s =
      softResetColumn
        { s with
          history :=
            s.history ++ [.dispatch s.hdrKind s.hdrVar (memRead s.scratch 0 s.hdrSize.toNat) (crcValid s)]
          lastResult := deliveredResult (crcValid s) } := by
  obtain ⟨hkind, hvalid, -⟩ | ⟨-, k⟩ := dispatch_cases (crcValid s) s
  · exact absurd ⟨hkind, hvalid⟩ hk
  · rw [complete_unstreamed hd hs ho, k]
    rfl

/-- A valid CLIENTCONFIG_V2 is dispatched and then switches the Intron. -/
theorem complete_config (hd : s.dstate ≠ .dp) (hs : s.streamed = false) (ho : s.streamOpen = false)
    (hk : s.hdrKind = s.cfg.kindCode.clientConfigV2) (hv : crcValid s = true) :
    complete s =
      softResetColumn
        { s with
          intron := intronOf (memRead s.scratch 0 8)
          history :=
            s.history ++ [.dispatch s.hdrKind s.hdrVar (memRead s.scratch 0 s.hdrSize.toNat) true,
              .intronSet (intronOf (memRead s.scratch 0 8)) .rx]
          lastResult := .ok } := by
  obtain ⟨-, -, k⟩ | ⟨hno, -⟩ := dispatch_cases (crcValid s) s
  · rw [complete_unstreamed hd hs ho, k, hv]
    rfl
  · exact absurd ⟨hk, hv⟩ hno

end Complete

/-! ### ReceivingPayload, streamed (43_deframer.md R228) -/

theorem streamByte_before_last {s : State} (h : s.payCnt + 1 ≠ s.hdrSize) (b : Byte) :
    streamByte b s =
      { s with
        crcAcc := crcFold s.cfg.crc s.crcAcc b, payCnt := s.payCnt + 1, history := s.history ++ [.tunUpdate b] } :=
  countPayload_before_last (s := (foldByte s b).emit (.tunUpdate b)) h

theorem streamByte_last {s : State} (hd : s.dstate ≠ .dp) (hs : s.streamed = true) (h : s.payCnt + 1 = s.hdrSize)
    (b : Byte) :
    streamByte b s =
      softResetColumn
        { s with
          history := s.history ++ [.tunUpdate b, .tunCommit (crcValid (foldByte s b))]
          lastResult := deliveredResult (crcValid (foldByte s b)) } := by
  have hcomplete := (countPayload_last (s := (foldByte s b).emit (.tunUpdate b)) h).trans (complete_streamed hd hs)
  have hevents (e : Event) : s.history ++ [.tunUpdate b, e] = s.history ++ [.tunUpdate b] ++ [e] := by simp
  rw [hevents]
  exact hcomplete

/-- Settles O21: the byte is folded, counted and passed on, and the last one commits. -/
theorem streamByteResult : Obligations.StreamByteResult := by
  intro s b rdy hd hs c valid
  rw [exec_rxByte_streamed b rdy hd hs]
  exact ⟨fun hmiddle => congrArg _ (streamByte_before_last hmiddle b),
    fun hlast => congrArg _ (streamByte_last (by simp [hd]) hs hlast b)⟩

/-! ### ReceivingPayload, stored (43_deframer.md R229) -/

/-- The bytes below the written index read as before, and the written one follows them. -/
theorem memRead_write_succ {m : Memory} (hm : m.wf = true) (n : Nat) (b : Byte) :
    memRead (m.write n b) 0 (n + 1) = memRead m 0 n ++ [b] := by
  have hbelow : memRead (m.write n b) 0 n = memRead m 0 n := by
    refine List.map_congr_left fun k hk => ?_
    have hkn : n ≠ 0 + k := by have := List.mem_range.mp hk; omega
    rw [Memory.read_write hm, if_neg hkn]
  rw [memRead_succ, hbelow, Memory.read_write hm, if_pos (Nat.zero_add n).symm]

section ScratchByte

variable {s : State} (b : Byte)

theorem scratchByte_stored (h : s.payCnt.toNat < 64) :
    scratchByte b s = .ok (countPayload { foldByte s b with scratch := s.scratch.write s.payCnt.toNat b }) := by
  have hw : memWrite s.scratch s.payCnt.toNat b = .ok (s.scratch.write s.payCnt.toNat b) := if_pos h
  simp [scratchByte, hw]

theorem scratchByte_overflow (h : 64 ≤ s.payCnt.toNat) :
    scratchByte b s = .error (.scratchOverflow s.payCnt.toNat) := by
  have hw : memWrite s.scratch s.payCnt.toNat b = .error (.scratchOverflow s.payCnt.toNat) :=
    if_neg (Nat.not_lt.mpr h)
  simp [scratchByte, hw]

/-- The state with one more payload byte folded, counted and stored. -/
def storeByte (b : Byte) (s : State) : State :=
  { s with
    crcAcc := crcFold s.cfg.crc s.crcAcc b, payCnt := s.payCnt + 1
    scratch := s.scratch.write s.payCnt.toNat b }

theorem exec_scratchByte_middle (rdy : Bool) (hd : s.dstate = .rp) (hs : s.streamed = false)
    (h : s.payCnt.toNat < 64) (hmiddle : s.payCnt + 1 ≠ s.hdrSize) :
    exec (.rxByte b rdy) s = .next (storeByte b s) := by
  rw [exec_rxByte_scratch b rdy hd hs, scratchByte_stored b h, finish_ok]
  exact congrArg _ (countPayload_before_last hmiddle)

theorem exec_scratchByte_last (rdy : Bool) (hd : s.dstate = .rp) (hs : s.streamed = false)
    (h : s.payCnt.toNat < 64) (hlast : s.payCnt + 1 = s.hdrSize) :
    exec (.rxByte b rdy) s = .next (complete (storeByte b s)) := by
  rw [exec_rxByte_scratch b rdy hd hs, scratchByte_stored b h, finish_ok]
  exact congrArg _ (countPayload_last hlast)

end ScratchByte

/-- Settles O22: the byte is stored at PAY_CNT, or PAY_CNT is outside SCRATCH and the step only faults. -/
theorem scratchByteResult : Obligations.ScratchByteResult := by
  refine fun s b rdy hd hs hcanon => ⟨fun h hmiddle => ?_, fun h => ?_⟩
  · refine ⟨_, exec_scratchByte_middle b rdy hd hs h hmiddle, ?_, fun a ha => ?_, Memory.write_wf hcanon h b⟩
    · rw [Memory.read_write hcanon, if_pos rfl]
    · rw [Memory.read_write hcanon, if_neg ha.symm]
  · rw [exec_rxByte_scratch b rdy hd hs, scratchByte_overflow b h]
    rfl

/-- Settles O23: the last byte completes the message with SCRATCH holding its payload. -/
theorem lastScratchByteDispatches : Obligations.LastScratchByteDispatches := by
  intro s b rdy hd hs ho hcanon h hlast valid payload
  have hsize : s.hdrSize.toNat = s.payCnt.toNat + 1 := by
    rw [← hlast]
    bv_omega
  have hpayload : memRead (storeByte b s).scratch 0 s.hdrSize.toNat = payload := by
    rw [hsize]
    exact memRead_write_succ hcanon _ b
  have hd' : (storeByte b s).dstate ≠ .dp := fun h => by cases hd.symm.trans h
  rw [exec_scratchByte_last b rdy hd hs h hlast]
  refine ⟨(storeByte b s).scratch, fun a => ?reads, Memory.write_wf hcanon h b, fun hk => ?other, fun hk hv => ?config⟩
  case reads =>
    rw [storeByte, Memory.read_write hcanon]
    exact if_congr eq_comm rfl rfl
  case other =>
    rw [complete_dispatched (s := storeByte b s) hd' hs ho hk, ← hpayload]
    rfl
  case config =>
    rw [complete_config (s := storeByte b s) hd' hs ho hk hv, ← hpayload]
    rfl

/-! ### DFR_RESET (43_deframer.md R235) -/

theorem softReset_open {s : State} (h : s.streamOpen = true) :
    softReset s = softResetColumn { s with history := s.history ++ [.tunAbandon] } := by
  simp [softReset, h, softResetColumn, State.emit]

/-- Settles O26: SoftReset with and without a stream to abandon. -/
theorem dfrResetResult : Obligations.DfrResetResult :=
  fun _ => ⟨fun h => congrArg _ (softReset_open h), fun h => congrArg _ (softReset_eq_softResetColumn h)⟩

end Sys2Proof.Machine

/-! PROOFS. The completion of a header (43_deframer.md R223 to R227): HeaderComplete as an equation for each kind and
answer, the wire rows, and the byte that completes a header (log 7). -/

namespace Sys2Proof.Machine

/-! ### HeaderComplete -/

theorem completeIfEmpty_payload {s : State} (h : s.hdrSize ≠ 0) : completeIfEmpty s = s := if_neg fun hn => h hn.2

theorem completeIfEmpty_empty {s : State} (hd : s.dstate = .rp ∨ s.dstate = .dp) (h : s.hdrSize = 0) :
    completeIfEmpty s = complete s := if_pos ⟨hd, h⟩

section HeaderComplete

variable {s : State} {rdy : Bool}

theorem headerComplete_bad (ha : accept s.cfg s.hdrKind s.hdrSize = false) :
    headerComplete rdy s = .ok (badHeader { s with payCnt := 0 }) := by
  rw [headerComplete, if_pos ha, completeIfEmpty_badHeader]

theorem headerComplete_rejected (ha : accept s.cfg s.hdrKind s.hdrSize = false) (ho : s.streamOpen = false) :
    headerComplete rdy s =
      .ok (softResetColumn
        { s with
          history := s.history ++ [.invalidHeader s.hdrKind s.hdrVar s.hdrSize], lastResult := .badHeader }) := by
  rw [headerComplete_bad ha]
  exact congrArg _ (softReset_eq_softResetColumn ho)

section Scratch

/-- The state that receives a payload for SCRATCH. -/
def receiving (s : State) : State := { s with payCnt := 0, dstate := .rp, streamed := false }

variable (ha : accept s.cfg s.hdrKind s.hdrSize = true) (hk : isStreamed s.cfg s.hdrKind = false)
include ha hk

theorem headerComplete_scratch : headerComplete rdy s = .ok (completeIfEmpty (receiving s)) := by
  simp [headerComplete, ha, hk, receiving]

theorem headerComplete_receives (hn : s.hdrSize ≠ 0) : headerComplete rdy s = .ok (receiving s) := by
  rw [headerComplete_scratch ha hk, completeIfEmpty_payload (s := receiving s) hn]

/-- A kind without a payload is dispatched at once; a CLIENTCONFIG_V2 has one. -/
theorem headerComplete_dispatches (hc : s.hdrKind ≠ s.cfg.kindCode.clientConfigV2) (hn : s.hdrSize = 0)
    (ho : s.streamOpen = false) :
    headerComplete rdy s =
      .ok (softResetColumn
        { s with
          history := s.history ++ [.dispatch s.hdrKind s.hdrVar [] (crcValid s)]
          lastResult := deliveredResult (crcValid s) }) := by
  rw [headerComplete_scratch ha hk, completeIfEmpty_empty (s := receiving s) (.inl rfl) hn,
    complete_dispatched (s := receiving s) nofun rfl ho fun h => hc h.1]
  simp [softResetColumn, receiving, hn, crcValid]

end Scratch

section Streamed

variable (ha : accept s.cfg s.hdrKind s.hdrSize = true) (hk : isStreamed s.cfg s.hdrKind = true)
include ha hk

theorem headerComplete_overlaps (ho : s.streamOpen = true) : headerComplete rdy s = .error .streamOverlap := by
  simp [headerComplete, ha, hk, beginStream, ho]

/-- The state that asks the tunnel: streaming if the consumer accepts, discarding if it declines. -/
def begun (rdy : Bool) (s : State) : State :=
  { s with
    payCnt := 0, history := s.history ++ [.tunBegin s.hdrVar s.hdrSize rdy]
    streamOpen := rdy, streamed := rdy, dstate := if rdy then .rp else .dp }

theorem headerComplete_begins (ho : s.streamOpen = false) :
    headerComplete rdy s = .ok (completeIfEmpty (begun rdy s)) := by
  cases rdy <;> simp [headerComplete, ha, hk, beginStream, ho, begun, State.emit]

theorem headerComplete_streams (ho : s.streamOpen = false) (hn : s.hdrSize ≠ 0) :
    headerComplete rdy s = .ok (begun rdy s) := by
  rw [headerComplete_begins ha hk ho, completeIfEmpty_payload (s := begun rdy s) hn]

theorem headerComplete_commits (ho : s.streamOpen = false) (hn : s.hdrSize = 0) :
    headerComplete true s =
      .ok (softResetColumn
        { s with
          history := s.history ++ [.tunBegin s.hdrVar s.hdrSize true, .tunCommit (crcValid s)]
          lastResult := deliveredResult (crcValid s) }) := by
  rw [headerComplete_begins ha hk ho, completeIfEmpty_empty (s := begun true s) (.inl rfl) hn,
    complete_streamed (s := begun true s) nofun rfl]
  simp [softResetColumn, begun, crcValid]

theorem headerComplete_discards (ho : s.streamOpen = false) (hn : s.hdrSize = 0) :
    headerComplete false s =
      .ok (softResetColumn
        { s with
          history := s.history ++ [.tunBegin s.hdrVar s.hdrSize false]
          lastResult := discardedResult (crcValid s) }) := by
  rw [headerComplete_begins ha hk ho, completeIfEmpty_empty (s := begun false s) (.inr rfl) hn,
    complete_discarding (s := begun false s) rfl rfl]
  simp [softResetColumn, begun, crcValid]

end Streamed

/-- Only the begin of a second stream faults. -/
theorem headerComplete_closed (ho : s.streamOpen = false) : ∃ t, headerComplete rdy s = .ok t := by
  obtain ⟨-, k⟩ | ⟨ha, hk, -⟩ | ⟨-, -, k⟩ := headerComplete_cases rdy s
  · exact ⟨_, k⟩
  · exact ⟨_, headerComplete_begins ha hk ho⟩
  · exact ⟨_, k⟩

/-- The answer is read only for an accepted PACKET_V2. -/
theorem headerComplete_answer_unread
    (h : ¬ (accept s.cfg s.hdrKind s.hdrSize = true ∧ isStreamed s.cfg s.hdrKind = true)) (r : Bool) :
    headerComplete rdy s = headerComplete r s := by
  simp only [not_and, Bool.not_eq_true] at h
  cases ha : accept s.cfg s.hdrKind s.hdrSize
  · simp [headerComplete, ha]
  · simp [headerComplete, ha, h ha]

end HeaderComplete

/-! ### Wire rows (40_vocabulary.md R153 to R161) -/

theorem exec_wireRow {i : Instr} {k : Kind} {v : Byte} {n : BitVec 16} {r : Bool} (h : WireRow i k v n r) (s : State) :
    exec i s = finish s (headerComplete r (latchHeader k v n s)) := by
  cases h <;> rfl

theorem isStreamed_code {cfg : Config} (h : cfg.wf = true) (k : Kind) :
    isStreamed cfg (cfg.kindCode.code k) = decide (k = .packetV2) := by
  simp [isStreamed, (code_injective h).eq_iff]

section Rows

variable {s : State} (hcfg : s.cfg.wf = true) {k : Kind} {v : Byte} {n : BitVec 16}
include hcfg

theorem accept_latched (hn : k.hasLength n) :
    accept (latchHeader k v n s).cfg (latchHeader k v n s).hdrKind (latchHeader k v n s).hdrSize = true :=
  (accept_code hcfg k n).mpr hn

theorem not_streamed_latched (hk : k ≠ .packetV2) :
    isStreamed (latchHeader k v n s).cfg (latchHeader k v n s).hdrKind = false :=
  (isStreamed_code hcfg k).trans (decide_eq_false hk)

theorem streamed_latched : isStreamed (latchHeader .packetV2 v n s).cfg (latchHeader .packetV2 v n s).hdrKind = true :=
  (isStreamed_code hcfg .packetV2).trans rfl

/-- The row of a kind with a payload for SCRATCH. -/
theorem exec_row_receives {i : Instr} {r : Bool} (hrow : WireRow i k v n r) (hk : k ≠ .packetV2)
    (hlen : k.hasLength n) (hn : n ≠ 0) :
    exec i s =
      .next { s with
        hdrKind := s.cfg.kindCode.code k, hdrVar := v, hdrSize := n, hdrCnt := 8, payCnt := 0
        dstate := .rp, streamed := false } := by
  rw [exec_wireRow hrow, headerComplete_receives (accept_latched hcfg hlen) (not_streamed_latched hcfg hk) hn]
  rfl

/-- The row of a kind without a payload. -/
theorem exec_row_dispatches {i : Instr} {r : Bool} (hrow : WireRow i k v 0 r) (hk : k ≠ .packetV2)
    (hc : k ≠ .clientConfigV2) (hlen : k.hasLength 0) (ho : s.streamOpen = false) :
    exec i s =
      .next (softResetColumn
        { s with
          history := s.history ++ [.dispatch (s.cfg.kindCode.code k) v [] (crcValid s)]
          lastResult := deliveredResult (crcValid s) }) := by
  have hkind : (latchHeader k v 0 s).hdrKind ≠ s.cfg.kindCode.clientConfigV2 :=
    (code_injective hcfg).ne (a₂ := .clientConfigV2) hc
  rw [exec_wireRow hrow,
    headerComplete_dispatches (accept_latched hcfg hlen) (not_streamed_latched hcfg hk) hkind rfl ho]
  rfl

end Rows

/-- Settles O27: three rows receive a payload; a CLIENTCONFIG_V2 of another length is rejected. -/
theorem scratchKindsEnterReceiving : Obligations.ScratchKindsEnterReceiving := by
  refine fun s v n hcfg => ⟨exec_row_receives hcfg (.deviceInfoV2 v) nofun rfl (by decide), fun hlow hhigh => ?config,
    fun hlen ho => ?rejected, exec_row_receives hcfg (.scanApGetRsp v) nofun (.inr rfl) (by decide)⟩
  case config =>
    exact exec_row_receives hcfg (.clientConfigV2 v n) nofun ⟨hlow, hhigh⟩ fun h => by simp [h] at hlow
  case rejected =>
    have hreject := Bool.eq_false_iff.mpr (mt (accept_code hcfg .clientConfigV2 n).mp hlen)
    rw [exec_wireRow (.clientConfigV2 v n),
      headerComplete_rejected (s := latchHeader .clientConfigV2 v n s) hreject ho]
    rfl

/-- Settles O28: four rows have length 0. -/
theorem emptyKindsDispatchAtOnce : Obligations.EmptyKindsDispatchAtOnce := fun _ v hcfg ho =>
  ⟨exec_row_dispatches hcfg (.scanStart v) nofun nofun rfl ho, exec_row_dispatches hcfg (.scanStop v) nofun nofun rfl ho,
    exec_row_dispatches hcfg (.scanApCnt v) nofun nofun rfl ho,
    exec_row_dispatches hcfg (.scanApGetReq v) nofun nofun (.inl rfl) ho⟩

/-- Settles O29: the tunnel is asked unless a stream is open. -/
theorem packetAsksTheTunnel : Obligations.PacketAsksTheTunnel := by
  intro s v n rdy hcfg
  have ha := accept_latched (v := v) (n := n) hcfg (k := .packetV2) trivial
  have hk := streamed_latched (v := v) (n := n) hcfg
  rw [exec_wireRow (.packetV2 v n rdy)]
  exact ⟨fun ho hn => congrArg _ (headerComplete_streams ha hk ho hn),
    fun ho => congrArg _ (headerComplete_overlaps ha hk ho)⟩

/-- Settles O30: an accepted message without a payload commits, a declined one is discarded. -/
theorem emptyPacketCompletesAtOnce : Obligations.EmptyPacketCompletesAtOnce := by
  intro s v hcfg ho valid
  have ha := accept_latched (v := v) (n := 0) hcfg (k := .packetV2) trivial
  have hk := streamed_latched (v := v) (n := 0) hcfg
  rw [exec_wireRow (.packetV2 v 0 true), exec_wireRow (.packetV2 v 0 false)]
  exact ⟨congrArg (finish s) (headerComplete_commits ha hk ho rfl),
    congrArg (finish s) (headerComplete_discards ha hk ho rfl)⟩

/-! ### The byte that completes a header -/

/-- The wire row of the header registers does what the completion of the header does. -/
theorem exec_of_decodeHeader {s t : State} (hcfg : s.cfg.wf = true) (ho : s.streamOpen = false) (hcnt : s.hdrCnt = 8)
    {rdy : Bool} {i : Instr}
    (h : decodeHeader s.cfg (headerWord s.hdrKind s.hdrVar s.hdrSize) rdy = .ok i) :
    finish t (headerComplete rdy s) = exec i s := by
  obtain ⟨-, j, k, r, hdecode, hrow, hcode, hr⟩ | ⟨-, hreject⟩ :=
    decodeHeader_cases s.cfg (headerWord s.hdrKind s.hdrVar s.hdrSize) rdy
  · simp only [hdrKindField_headerWord, hdrVarField_headerWord, hdrSizeField_headerWord] at hrow hcode
    obtain rfl : j = i := by simpa [hdecode] using h
    have hlatch : latchHeader k s.hdrVar s.hdrSize s = s := by
      rw [latchHeader, ← hcode, ← hcnt]
    have hanswer : headerComplete rdy s = headerComplete r s := by
      by_cases hk : k = .packetV2
      · rw [hr hk]
      · refine headerComplete_answer_unread (fun hs => ?_) r
        rw [hcode, isStreamed_code hcfg, decide_eq_true_eq] at hs
        exact hk hs.2
    obtain ⟨u, hu⟩ := headerComplete_closed (rdy := r) ho
    rw [exec_wireRow hrow, hlatch, hanswer, hu, finish_ok, finish_ok]
  · simp [hreject] at h

/-- A header that decodes to no row is not accepted. -/
theorem not_accepted_of_decodeHeader {cfg : Config} {k v : Byte} {n : BitVec 16} {rdy : Bool} {e : Reject}
    (h : decodeHeader cfg (headerWord k v n) rdy = .error e) : accept cfg k n = false := by
  obtain ⟨-, j, -, -, hdecode, -⟩ | ⟨hreject, -⟩ := decodeHeader_cases cfg (headerWord k v n) rdy
  · simp [hdecode] at h
  · simpa using hreject

/-- Settles O18: the completed header's row, or the invalid header. -/
theorem lastHeaderByteRunsWireInstruction : Obligations.LastHeaderByteRunsWireInstruction := by
  intro s b rdy hcfg hd hc ho t
  rw [exec_rxByte_headerEnd b rdy hd hc]
  refine ⟨fun i hi => exec_of_decodeHeader (s := t) hcfg ho rfl hi, fun k v n hreject => ?_⟩
  rw [headerComplete_rejected (s := t) (not_accepted_of_decodeHeader hreject) ho]
  rfl

/-- Settles O20: RDY reaches only the completion of a header, and there only an accepted PACKET_V2. -/
theorem rdyReadOnlyAtPacketHeader : Obligations.RdyReadOnlyAtPacketHeader := by
  intro s b r r' h
  cases hd : s.dstate with
  | ai => rw [exec_rxByte_intron b r hd, exec_rxByte_intron b r' hd]
  | ah =>
    by_cases hc : s.hdrCnt = 7
    · rw [exec_rxByte_headerEnd b r hd hc, exec_rxByte_headerEnd b r' hd hc]
      refine congrArg (finish s) (headerComplete_answer_unread (fun hs => ?_) r')
      exact h ⟨hd, hc, hs.1, of_decide_eq_true hs.2⟩
    · rw [exec_rxByte_headerByte b r hd hc, exec_rxByte_headerByte b r' hd hc]
  | rp =>
    cases hs : s.streamed
    · rw [exec_rxByte_scratch b r hd hs, exec_rxByte_scratch b r' hd hs]
    · rw [exec_rxByte_streamed b r hd hs, exec_rxByte_streamed b r' hd hs]
  | dp => rw [exec_rxByte_discarding hd, exec_rxByte_discarding hd]

end Sys2Proof.Machine

/-! PROOFS. Bytes one after another (43_deframer.md R236, R237): `process` over a concatenation, the eight bytes of a
header, and the port's commands as `process`. -/

namespace Sys2Proof.Machine

/-! ### process -/

theorem process_append (rdy : Bool) (a b : List Byte) (s : State) :
    process rdy (a ++ b) s = andThen (process rdy a s) (process rdy b) := by
  induction a generalizing s with
  | nil => rfl
  | cons x a ih =>
    rw [List.cons_append, process_cons, process_cons, andThen_assoc]
    exact congrArg _ (funext ih)

theorem process_append_next {rdy : Bool} {a : List Byte} {s t : State} (h : process rdy a s = .next t) (b : List Byte) :
    process rdy (a ++ b) s = process rdy b t := by
  rw [process_append, h, andThen_next]

theorem process_cons_next {rdy : Bool} {b : Byte} {s t : State} (h : exec (.rxByte b rdy) s = .next t)
    (bs : List Byte) : process rdy (b :: bs) s = process rdy bs t := by
  rw [process_cons, h, andThen_next]

/-! ### The eight bytes of a header (30_encoding.md R112, R113) -/

/-- The two bytes of PayloadSize make HDR_SIZE. -/
theorem hdrSize_of_be16 (n : BitVec 16) :
    ((n.extractLsb' 8 8).setWidth 16 <<< 8) ||| (n.extractLsb' 0 8).setWidth 16 = n := by
  have hn : (n.extractLsb' 8 8).toNat * 256 + (n.extractLsb' 0 8).toNat = n.toNat := be16_toNat n
  rw [shiftIn_eq_ofNat, BitVec.toNat_setWidth_of_le (by decide), hn, BitVec.ofNat_toNat, BitVec.setWidth_eq]

/-- CRC_RX after one more checksum byte (43_deframer.md R222). -/
def crcRxNext (r : BitVec 32) (b : Byte) : BitVec 32 := BitVec.ofNat 32 (r.toNat * 256 + b.toNat)

/-- Four checksum bytes replace CRC_RX, whatever it held. -/
theorem foldl_crcRxNext (x : BitVec 32) (a b c d : Byte) :
    [a, b, c, d].foldl crcRxNext x =
      BitVec.ofNat 32 (((a.toNat * 256 + b.toNat) * 256 + c.toNat) * 256 + d.toNat) := by
  have ha := a.isLt
  have hb := b.isLt
  have hc := c.isLt
  have hd := d.isLt
  apply BitVec.eq_of_toNat_eq
  simp only [List.foldl_cons, List.foldl_nil, crcRxNext, BitVec.toNat_ofNat]
  omega

theorem foldl_crcRxNext_be32 (x c : BitVec 32) : (be32 c).foldl crcRxNext x = c := by
  have hc := be32_toNat c
  simp only [be32, List.getD_cons_zero, List.getD_cons_succ] at hc
  rw [be32, foldl_crcRxNext, hc, BitVec.ofNat_toNat, BitVec.setWidth_eq]

/-- The state with header fields, checksum and index of a header in progress. -/
def withHeader (k v : Byte) (n : BitVec 16) (acc : BitVec 32) (cnt : BitVec 4) (s : State) : State :=
  { s with hdrKind := k, hdrVar := v, hdrSize := n, crcAcc := acc, hdrCnt := cnt }

/-- The first four header bytes. -/
theorem process_headerFields {s : State} (rdy : Bool) (hd : s.dstate = .ah) (h0 : s.hdrCnt = 0) (k v : Byte)
    (n : BitVec 16) :
    process rdy ([k, v] ++ be16 n) s =
      .next (withHeader k v n (([k, v] ++ be16 n).foldl (crcFold s.cfg.crc) s.crcAcc) 4 s) := by
  have step {u t : State} {b : Byte} (hu : u.dstate = .ah) (h7 : u.hdrCnt ≠ 7) (ht : headerByte b u = t)
      (bs : List Byte) : process rdy (b :: bs) u = process rdy bs t :=
    process_cons_next ((exec_rxByte_headerByte b rdy hu h7).trans (congrArg _ ht)) bs
  have hkind : headerByte k s = withHeader k s.hdrVar s.hdrSize (crcFold s.cfg.crc s.crcAcc k) 1 s :=
    headerByte_kind k h0
  have hvar (acc : BitVec 32) : headerByte v (withHeader k s.hdrVar s.hdrSize acc 1 s) =
      withHeader k v s.hdrSize (crcFold s.cfg.crc acc v) 2 s := headerByte_var v rfl
  have hhigh (acc : BitVec 32) (b : Byte) : headerByte b (withHeader k v s.hdrSize acc 2 s) =
      withHeader k v (b.setWidth 16 <<< 8) (crcFold s.cfg.crc acc b) 3 s := headerByte_sizeHigh b rfl
  have hlow (acc : BitVec 32) (m : BitVec 16) (b : Byte) : headerByte b (withHeader k v m acc 3 s) =
      withHeader k v (m ||| b.setWidth 16) (crcFold s.cfg.crc acc b) 4 s := headerByte_sizeLow b rfl
  have hah {u : State} {k' v' : Byte} {m : BitVec 16} {acc : BitVec 32} {cnt : BitVec 4} (hu : u.dstate = .ah) :
      (withHeader k' v' m acc cnt u).dstate = .ah := hu
  rw [be16, List.cons_append, List.cons_append, List.nil_append, step hd (by simp [h0]) hkind,
    step (hah hd) (by simp [withHeader]) (hvar _), step (hah hd) (by simp [withHeader]) (hhigh _ _),
    step (hah hd) (by simp [withHeader]) (hlow _ _ _), hdrSize_of_be16, process_nil]
  rfl

/-- The four checksum bytes complete the header. -/
theorem process_checksum {s t : State} {rdy : Bool} (hd : s.dstate = .ah) (h4 : s.hdrCnt = 4) (c : BitVec 32)
    (ht : headerComplete rdy { s with crcRx := c, hdrCnt := 8 } = .ok t) : process rdy (be32 c) s = .next t := by
  have step {u : State} (hu : u.dstate = .ah) (hcnt : 4 ≤ u.hdrCnt.toNat) (h7 : u.hdrCnt ≠ 7) (b : Byte)
      (bs : List Byte) :
      process rdy (b :: bs) u = process rdy bs { u with crcRx := crcRxNext u.crcRx b, hdrCnt := u.hdrCnt + 1 } :=
    process_cons_next ((exec_rxByte_headerByte b rdy hu h7).trans (congrArg _ (headerByte_checksum b hcnt))) bs
  have hlast {u : State} (hu : u.dstate = .ah) (h7 : u.hdrCnt = 7) (b : Byte)
      (hu' : headerComplete rdy { u with crcRx := crcRxNext u.crcRx b, hdrCnt := 8 } = .ok t) :
      process rdy [b] u = .next t :=
    process_cons_next ((exec_rxByte_headerEnd b rdy hu h7).trans (congrArg (finish u) hu')) []
  rw [← foldl_crcRxNext_be32 s.crcRx c] at ht
  rw [be32, step hd (by simp [h4]) (by simp [h4]), step (by exact hd) (by simp [h4]) (by simp [h4]),
    step (by exact hd) (by simp [h4]) (by simp [h4]), hlast (by exact hd) (by simp [h4])]
  exact ht

/-- The eight bytes of a header run its completion. -/
theorem process_header {s t : State} {rdy : Bool} (hd : s.dstate = .ah) (h0 : s.hdrCnt = 0) (k v : Byte)
    (n : BitVec 16) (c : BitVec 32)
    (ht : headerComplete rdy
      { withHeader k v n (([k, v] ++ be16 n).foldl (crcFold s.cfg.crc) s.crcAcc) 8 s with crcRx := c } = .ok t) :
    process rdy ([k, v] ++ be16 n ++ be32 c) s = .next t := by
  rw [process_append_next (process_headerFields rdy hd h0 k v n)]
  exact process_checksum (s := withHeader k v n _ 4 s) hd rfl c ht

/-- Settles O19: the completion of the assembled header is its wire row. -/
theorem headerBytesRunWireInstruction : Obligations.HeaderBytesRunWireInstruction := by
  intro s k v n c rdy i hcfg hd h0 ho hdecode
  obtain ⟨t, ht⟩ := headerComplete_closed (rdy := rdy)
    (s := { withHeader k v n (([k, v] ++ be16 n).foldl (crcFold s.cfg.crc) s.crcAcc) 8 s with crcRx := c }) ho
  have hrow := exec_of_decodeHeader (t := s)
    (s := { withHeader k v n (([k, v] ++ be16 n).foldl (crcFold s.cfg.crc) s.crcAcc) 8 s with crcRx := c })
    hcfg ho rfl hdecode
  rw [process_header hd h0 k v n c ht]
  rw [ht, finish_ok] at hrow
  exact hrow

/-! ### RX_BYTE reads no port and no turn -/

/-- The state with other commands at the serial port and other turns. -/
def State.issue (s : State) (cs : List Command) (ts : List Agent) : State := { s with serialPort := cs, turns := ts }

section Issue

variable (s : State) (cs : List Command) (ts : List Agent) (b : Byte) (rdy : Bool)

theorem recordFault_issue (f : FaultCode) : (s.issue cs ts).recordFault f = (s.recordFault f).issue cs ts := rfl

theorem softReset_issue : softReset (s.issue cs ts) = (softReset s).issue cs ts := by
  cases h : s.streamOpen
  · rw [softReset_closed h, softReset_closed (s := s.issue cs ts) h]
    rfl
  · rw [softReset_open h, softReset_open (s := s.issue cs ts) h]
    rfl

theorem intronStep_issue : intronStep b (s.issue cs ts) = (intronStep b s).issue cs ts := by
  by_cases h : fillNext s.wfill = 8 ∧ winNext s.win b = be64 s.intron
  · rw [intronStep_match h, intronStep_match (s := s.issue cs ts) h]
    rfl
  · rw [intronStep_no_match h, intronStep_no_match (s := s.issue cs ts) h]
    rfl

theorem dispatch_issue (valid : Bool) : dispatch valid (s.issue cs ts) = (dispatch valid s).issue cs ts := by
  unfold dispatch
  by_cases h : s.hdrKind = s.cfg.kindCode.code .clientConfigV2 ∧ valid = true
  · rw [if_pos h]
    exact if_pos h
  · rw [if_neg h]
    exact if_neg h

theorem deliver_issue : deliver (s.issue cs ts) = (deliver s).issue cs ts := by
  by_cases hd : s.dstate = .dp
  · rw [deliver_discarding hd, deliver_discarding (s := s.issue cs ts) hd]
    rfl
  cases hs : s.streamed
  · rw [deliver_unstreamed hd hs, deliver_unstreamed (s := s.issue cs ts) hd hs, dispatch_issue]
    rfl
  · rw [deliver_streamed hd hs, deliver_streamed (s := s.issue cs ts) hd hs]
    rfl

theorem complete_issue : complete (s.issue cs ts) = (complete s).issue cs ts := by
  rw [complete, deliver_issue, softReset_issue, complete]

theorem completeIfEmpty_issue : completeIfEmpty (s.issue cs ts) = (completeIfEmpty s).issue cs ts := by
  unfold completeIfEmpty
  by_cases h : (s.dstate = .rp ∨ s.dstate = .dp) ∧ s.hdrSize = 0
  · rw [if_pos h]
    exact (if_pos h).trans (complete_issue s cs ts)
  · rw [if_neg h]
    exact if_neg h

theorem badHeader_issue : badHeader (s.issue cs ts) = (badHeader s).issue cs ts :=
  softReset_issue { s.emit (.invalidHeader s.hdrKind s.hdrVar s.hdrSize) with lastResult := .badHeader } cs ts

theorem headerComplete_issue :
    headerComplete rdy (s.issue cs ts) = (headerComplete rdy s).map (State.issue · cs ts) := by
  cases ha : accept s.cfg s.hdrKind s.hdrSize
  · rw [headerComplete_bad ha, headerComplete_bad (s := s.issue cs ts) ha]
    exact congrArg Except.ok (badHeader_issue { s with payCnt := 0 } cs ts)
  cases hk : isStreamed s.cfg s.hdrKind
  · rw [headerComplete_scratch ha hk, headerComplete_scratch (s := s.issue cs ts) ha hk]
    exact congrArg Except.ok (completeIfEmpty_issue (receiving s) cs ts)
  cases ho : s.streamOpen
  · rw [headerComplete_begins ha hk ho, headerComplete_begins (s := s.issue cs ts) ha hk ho]
    exact congrArg Except.ok (completeIfEmpty_issue (begun rdy s) cs ts)
  · rw [headerComplete_overlaps ha hk ho, headerComplete_overlaps (s := s.issue cs ts) ha hk ho]
    rfl

theorem headerByte_issue : headerByte b (s.issue cs ts) = (headerByte b s).issue cs ts := by
  have hcnt : (s.issue cs ts).hdrCnt = s.hdrCnt := rfl
  simp only [headerByte, hcnt]
  split_ifs <;> rfl

theorem headerStep_issue : headerStep b rdy (s.issue cs ts) = (headerStep b rdy s).map (State.issue · cs ts) := by
  rw [headerStep, headerByte_issue, headerStep]
  by_cases h : (headerByte b s).hdrCnt = 8
  · rw [if_pos h]
    exact (if_pos h).trans (headerComplete_issue _ cs ts rdy)
  · rw [if_neg h]
    exact if_neg h

theorem countPayload_issue : countPayload (s.issue cs ts) = (countPayload s).issue cs ts := by
  by_cases h : s.payCnt + 1 = s.hdrSize
  · rw [countPayload_last h, countPayload_last (s := s.issue cs ts) h]
    exact complete_issue { s with payCnt := s.payCnt + 1 } cs ts
  · rw [countPayload_before_last h, countPayload_before_last (s := s.issue cs ts) h]
    rfl

theorem scratchByte_issue : scratchByte b (s.issue cs ts) = (scratchByte b s).map (State.issue · cs ts) := by
  by_cases h : s.payCnt.toNat < 64
  · rw [scratchByte_stored b h, scratchByte_stored (s := s.issue cs ts) b h]
    exact congrArg Except.ok (countPayload_issue
      { foldByte s b with scratch := s.scratch.write s.payCnt.toNat b } cs ts)
  · rw [scratchByte_overflow b (Nat.not_lt.mp h), scratchByte_overflow (s := s.issue cs ts) b (Nat.not_lt.mp h)]
    rfl

theorem receive_issue : receive b rdy (s.issue cs ts) = (receive b rdy s).map (State.issue · cs ts) := by
  have hdstate : (s.issue cs ts).dstate = s.dstate := rfl
  have hstreamed : (s.issue cs ts).streamed = s.streamed := rfl
  unfold receive
  rw [hdstate, hstreamed]
  cases s.dstate with
  | ai => exact congrArg Except.ok (intronStep_issue s cs ts b)
  | ah => exact headerStep_issue s cs ts b rdy
  | rp =>
    cases s.streamed
    · exact scratchByte_issue s cs ts b
    · exact congrArg Except.ok (countPayload_issue ((foldByte s b).emit (.tunUpdate b)) cs ts)
  | dp => exact congrArg Except.ok (countPayload_issue (foldByte s b) cs ts)

/-- RX_BYTE does the same whatever is issued and scheduled. -/
theorem exec_rxByte_issue {t : State} (h : exec (.rxByte b rdy) s = .next t) :
    exec (.rxByte b rdy) (s.issue cs ts) = .next (t.issue cs ts) := by
  have hreceive := receive_issue s cs ts b rdy
  obtain ⟨u, hu, k⟩ | ⟨f, hf, k⟩ := finish_cases s (receive b rdy s)
  · obtain rfl : u = t := by simpa [exec, execRxByte, k] using h
    simp [exec, execRxByte, hreceive, hu, Except.map]
  · obtain rfl : s.recordFault f = t := by simpa [exec, execRxByte, k] using h
    simp [exec, execRxByte, hreceive, hf, Except.map, recordFault_issue]

end Issue

/-! ### The serial port's commands -/

theorem admission_rxCommand (rdy : Bool) (b : Byte) : admission .serial (rxCommand rdy b) = .ok (.rxByte b rdy) := by
  have hword := congrArg Command.word (Option.some.inj (portCommand_rxByte Config.default rdy b))
  have hrow : (rxCommand rdy b).word &&& rowMask .rxByte = rowMatch .rxByte := by
    rw [← hword]
    exact Laws.RowPattern.rxByte b rdy
  rw [admission_inDomain (meetsRow_iff.mp hrow).1 rfl, ← hword]
  exact decodeCommand_encode (cfg := Config.default) rfl rfl

/-- The serial domain's next command is taken. -/
theorem step_serialIssues {s : State} (hheld : s.heldSerial = false) (rdy : Bool) (b : Byte) (cs : List Command) :
    step (serialIssues (rxCommand rdy b :: cs) s) = exec (.rxByte b rdy) (serialIssues cs s) := by
  have htakes : TakesCommand (serialIssues (rxCommand rdy b :: cs) s) .serial (rxCommand rdy b) (serialIssues cs s) :=
    ⟨rfl, by simp [State.heldDeq, drainedBy, State.held, serialIssues, hheld], rfl, rfl⟩
  exact htakes.step_ok (admission_rxCommand rdy b)

/-- The serial domain has issued nothing and waits in no DEQ, and no turn is scheduled. -/
structure SerialIdle (s : State) : Prop where
  heldSerial : s.heldSerial = false
  serialPort : s.serialPort = []
  turns : s.turns = []

theorem exec_rxByte_serialIdle {s : State} (h : SerialIdle s) (b : Byte) (rdy : Bool) :
    ∃ t, exec (.rxByte b rdy) s = .next t ∧ SerialIdle t := by
  obtain ⟨t, ht, k⟩ | ⟨f, -, k⟩ := finish_cases s (receive b rdy s)
  · obtain ⟨hrest, -⟩ := receive_leavesQueues ht
    exact ⟨t, k, hrest.heldSerial.trans h.heldSerial, hrest.serialPort.trans h.serialPort, hrest.turns.trans h.turns⟩
  · exact ⟨s.recordFault f, k, h.heldSerial, h.serialPort, h.turns⟩

theorem process_serialIdle {s : State} (h : SerialIdle s) (rdy : Bool) (bs : List Byte) :
    ∃ t, process rdy bs s = .next t ∧ SerialIdle t := by
  induction bs generalizing s with
  | nil => exact ⟨s, rfl, h⟩
  | cons b bs ih =>
    obtain ⟨t, ht, hidle⟩ := exec_rxByte_serialIdle h b rdy
    rw [process_cons_next ht]
    exact ih hidle

/-- The steps of the serial domain's commands, one per byte, are `process`. -/
theorem runSteps_serialIssues {s : State} (h : SerialIdle s) (rdy : Bool) (bs : List Byte) :
    runSteps bs.length (serialIssues (bs.map (rxCommand rdy)) s) = process rdy bs s := by
  induction bs generalizing s with
  | nil =>
    obtain ⟨-, hport, hturns⟩ := h
    cases s
    cases hport
    cases hturns
    rfl
  | cons b bs ih =>
    obtain ⟨t, ht, hidle⟩ := exec_rxByte_serialIdle h b rdy
    rw [List.length_cons, runSteps_succ, List.map_cons, step_serialIssues h.heldSerial, process_cons_next ht,
      ← ih hidle]
    exact congrArg (andThen · _) (exec_rxByte_issue s _ _ b rdy ht)

/-- Settles O31: the commands' steps are `process`, and `process` goes on where it stopped. -/
theorem chunkSizeIndependence : Obligations.ChunkSizeIndependence := by
  intro rdy a b s hheld hport hturns
  have hidle : SerialIdle s := ⟨hheld, hport, hturns⟩
  refine ⟨runSteps_serialIssues hidle rdy (a ++ b), ?_⟩
  obtain ⟨t, ht, hidle'⟩ := process_serialIdle hidle rdy a
  rw [runSteps_serialIssues hidle, process_append_next ht, ht, andThen_next, runSteps_serialIssues hidle']

end Sys2Proof.Machine

/-! PROOFS. What one instruction can do outside the deframer (60_exceptions.md R340, R343; 10_state.md R46): each answers a
next state, and its effect on queues, records and parameters is one of six (`Effect`). -/

namespace Sys2Proof.Machine

/-- What an instruction does outside the serial domain's registers. -/
inductive Effect (s : State) : State → Prop
  | leaves {t : State} (h : LeavesQueues s t) : Effect s t
  | faults (f : FaultCode) : Effect s (s.recordFault f)
  | appends (q : QId) (l : BitVec 16) (h : BitVec 32) (hfree : h ∉ s.handles)
      (hroom : (s.queue q).length < s.cfg.qcap) :
      Effect s ((s.setQueue q (s.queue q ++ [⟨l, h⟩])).emit (.qEnq q l h))
  | waits (q : QId) : Effect s (s.setHeld q true)
  | pops (q : QId) (e : Entry) (es : List Entry) (hq : s.queue q = e :: es) :
      Effect s (((s.setQueue q es).setHeld q false).emit (.qDeq q e.len e.handle))
  | resets : Effect s (resetProcedure s)

theorem finish_effect {s : State} {r : Except FaultCode State} (h : ∀ t, r = .ok t → LeavesQueues s t) :
    ∃ t, finish s r = .next t ∧ Effect s t := by
  obtain ⟨t, ht, k⟩ | ⟨f, -, k⟩ := finish_cases s r
  · exact ⟨t, k, .leaves (h t ht)⟩
  · exact ⟨_, k, .faults f⟩

theorem execHeader_effect (k : Kind) (v : Byte) (n : BitVec 16) (rdy : Bool) (s : State) :
    ∃ t, execHeader k v n rdy s = .next t ∧ Effect s t := by
  have hlatch : LeavesQueues s (latchHeader k v n s) := .of_history_eq rfl
  exact finish_effect fun t ht => hlatch.trans (headerComplete_leavesQueues ht)

theorem exec_enq_effect (q : QId) (l : BitVec 16) (h : BitVec 32) (s : State) :
    ∃ t, exec (.enq q l h) s = .next t ∧ Effect s t := by
  obtain ⟨-, k⟩ | ⟨hfree, hroom, k⟩ | ⟨-, -, k⟩ := exec_enq_cases q l h s
  · exact ⟨_, k, .faults _⟩
  · exact ⟨_, k, .appends q l h hfree hroom⟩
  · exact ⟨_, k, .leaves (.emit s fun _ => ⟨rfl, rfl⟩)⟩

theorem exec_deq_effect (q : QId) (s : State) : ∃ t, exec (.deq q) s = .next t ∧ Effect s t := by
  cases hq : s.queue q with
  | nil => exact ⟨_, exec_deq_nil hq, .waits q⟩
  | cons e es => exact ⟨_, exec_deq_cons hq, .pops q e es hq⟩

theorem exec_txMsg_next (k v : Byte) (n : BitVec 16) (p : List Byte) (s : State) :
    ∃ t, exec (.txMsg k v n p) s = .next t ∧ LeavesQueues s t := by
  have hnext : ∃ t, exec (.txMsg k v n p) s = .next t := by
    cases ha : accept s.cfg k n
    · exact ⟨_, exec_txMsg_rejected ha⟩
    · by_cases hk : k = s.cfg.kindCode.clientConfigV2
      · exact ⟨_, exec_txMsg_config ha hk⟩
      · exact ⟨_, exec_txMsg_other ha hk⟩
  obtain ⟨t, ht⟩ := hnext
  exact ⟨t, ht, execTxMsg_leavesQueues ht⟩

/-- Every instruction answers a next state, with one of the six effects. -/
theorem exec_effect (i : Instr) (s : State) : ∃ t, exec i s = .next t ∧ Effect s t := by
  cases i with
  | rxByte b rdy => exact finish_effect fun t ht => receive_leavesQueues ht
  | dfrReset => exact ⟨_, rfl, .leaves (softReset_leavesQueues s)⟩
  | txMsg k v n p =>
    obtain ⟨t, ht, h⟩ := exec_txMsg_next k v n p s
    exact ⟨t, ht, .leaves h⟩
  | enq q l h => exact exec_enq_effect q l h s
  | deq q => exact exec_deq_effect q s
  | rdState => exact ⟨_, rfl, .leaves (.emit s fun _ => ⟨rfl, rfl⟩)⟩
  | hwReset => exact ⟨_, rfl, .resets⟩
  | deviceInfoV2 | clientConfigV2 | packetV2 | scanStart | scanStop | scanApCnt | scanApGetReq | scanApGetRsp =>
    exact execHeader_effect _ _ _ _ s

theorem effect_of_exec {i : Instr} {s t : State} (h : exec i s = .next t) : Effect s t := by
  obtain ⟨u, hu, heffect⟩ := exec_effect i s
  obtain rfl : u = t := by simpa [hu] using h
  exact heffect

/-! ### Records, parameters, ports and turns -/

/-- The parameters, ports and turns are as before, and the records have only grown. -/
structure KeepsRecords (s t : State) : Prop where
  cfg : t.cfg = s.cfg
  serialPort : t.serialPort = s.serialPort
  radioPort : t.radioPort = s.radioPort
  systemPort : t.systemPort = s.systemPort
  turns : t.turns = s.turns
  history : s.history <+: t.history
  fault : ∀ f ∈ s.fault, f ∈ t.fault
  refused : ∀ c ∈ s.refused, c ∈ t.refused

theorem LeavesQueues.keepsRecords {s t : State} (h : LeavesQueues s t) : KeepsRecords s t := by
  obtain ⟨hrest, es, hes, -⟩ := h
  exact ⟨hrest.cfg, hrest.serialPort, hrest.radioPort, hrest.systemPort, hrest.turns, ⟨es, hes.symm⟩,
    fun f hf => hrest.fault ▸ hf, fun c hc => hrest.refused ▸ hc⟩

theorem Effect.keepsRecords {s t : State} (h : Effect s t) : KeepsRecords s t := by
  cases h with
  | leaves h => exact h.keepsRecords
  | faults f => exact ⟨rfl, rfl, rfl, rfl, rfl, List.prefix_rfl, fun g hg => mem_insertOnce.mpr (.inl hg), fun _ => id⟩
  | appends | waits | pops => constructor <;> simp
  | resets => constructor <;> simp

/-- Settles O10: the effects leave parameters, ports and turns. -/
theorem everyInstructionAnswersNext : Obligations.EveryInstructionAnswersNext := by
  intro i s
  obtain ⟨t, ht, heffect⟩ := exec_effect i s
  obtain ⟨hcfg, hserial, hradio, hsystem, hturns, -, -, -⟩ := heffect.keepsRecords
  exact ⟨t, ht, hcfg, hserial, hradio, hsystem, hturns⟩

/-- Settles O52: a fetch leaves the records, a refusal adds to one, and so does every effect. -/
theorem recordsAreNeverCleared : Obligations.RecordsAreNeverCleared := by
  intro s t h
  obtain ⟨u, ⟨_, _, _, _, rfl⟩, k | ⟨c, k⟩ | ⟨i, k, -⟩⟩ := step_cases s <;> rw [k] at h
  · cases h
    exact ⟨List.prefix_rfl, fun _ => id, fun _ => id, rfl⟩
  · cases h
    exact ⟨List.prefix_rfl, fun _ => id, fun d hd => mem_insertOnce.mpr (.inl hd), rfl⟩
  · have hkeeps := (effect_of_exec h).keepsRecords
    exact ⟨hkeeps.history, hkeeps.fault, hkeeps.refused, hkeeps.cfg⟩

/-- Settles O53: of the effects only a fault changes FAULT. -/
theorem faultingStepOnlyRecords : Obligations.FaultingStepOnlyRecords := by
  intro s t i h hne
  cases effect_of_exec h with
  | leaves h => exact absurd h.rest.fault hne
  | faults f =>
    have hf : f ∉ s.fault := fun hf => hne (if_pos hf)
    refine ⟨f, hf, ?_⟩
    rw [State.recordFault, insertOnce, if_neg hf]
  | appends | waits | pops => simp at hne
  | resets => exact absurd rfl hne

/-! ### Handles (45_queue_bridge.md R297) -/

theorem handles_append_perm (s : State) (q : QId) (e : Entry) :
    (s.setQueue q (s.queue q ++ [e])).handles.Perm (e.handle :: s.handles) := by
  cases q
  · simp only [State.handles, State.setQueue, State.queue, List.append_assoc, List.map_append]
    exact List.perm_middle
  · simp only [State.handles, State.setQueue, State.queue, ← List.append_assoc, List.map_append]
    exact List.perm_append_singleton _ _

theorem handles_pop_sublist {s : State} {q : QId} {e : Entry} {es : List Entry} (h : s.queue q = e :: es) :
    (s.setQueue q es).handles.Sublist s.handles := by
  have hes : es.Sublist (s.queue q) := h ▸ List.sublist_cons_self e es
  cases q
  · exact (hes.append_right s.s2r).map _
  · exact (hes.append_left s.r2s).map _

theorem Effect.handlesDistinct {s t : State} (h : Effect s t) (hs : HandlesDistinct s) : HandlesDistinct t := by
  cases h with
  | leaves h =>
    obtain ⟨⟨-, hr, hs', -⟩, -⟩ := h
    rwa [HandlesDistinct, State.handles, hr, hs']
  | faults f => exact hs
  | appends q l h hfree =>
    refine (handles_append_perm s q ⟨l, h⟩).nodup_iff.mpr ?_
    exact List.nodup_cons.mpr ⟨hfree, hs⟩
  | waits q => cases q <;> exact hs
  | pops q e es hq =>
    have hpop : HandlesDistinct (s.setQueue q es) := hs.sublist (handles_pop_sublist hq)
    cases q <;> exact hpop
  | resets => exact List.nodup_nil

/-- Settles O43: an appended handle was in no entry, and no other effect adds one. -/
theorem stepKeepsHandlesDistinct : Obligations.StepKeepsHandlesDistinct := by
  intro s t hs h
  obtain ⟨u, ⟨_, _, _, _, rfl⟩, k | ⟨c, k⟩ | ⟨i, k, -⟩⟩ := step_cases s <;> rw [k] at h
  · cases h
    exact hs
  · cases h
    exact hs
  · exact (effect_of_exec h).handlesDistinct hs

end Sys2Proof.Machine

/-! PROOFS. RX_BYTE in a state that meets the invariants (10_state.md R47): it never faults, and what it does is one of seven
(`Received`). The invariants and the tunnel's protocol (44_tunnel.md R270) are then kept case by case. -/

namespace Sys2Proof.Machine

/-! ### What RX_BYTE can do in a reachable state -/

/-- The state once the last checksum byte is placed. -/
def headerDone (b : Byte) (s : State) : State := { s with crcRx := crcRxNext s.crcRx b, hdrCnt := 8 }

/-- The tunnel's protocol along a state's new events: `es` takes STREAM_OPEN to `o`. -/
def TunnelTo (s : State) (es : List Event) (o : Bool) : Prop := es.foldl tunnelNext (some s.streamOpen) = some o

/-- What RX_BYTE does in a state that meets the invariants. -/
inductive Received (b : Byte) (rdy : Bool) (s : State) : State → Prop
  | searches (hd : s.dstate = .ai) :
      Received b rdy s { s with win := winNext s.win b, wfill := fillNext s.wfill }
  | found (hd : s.dstate = .ai) (hfill : fillNext s.wfill = 8) (hwin : winNext s.win b = be64 s.intron) :
      Received b rdy s
        { s with
          win := winNext s.win b, wfill := fillNext s.wfill, dstate := .ah, hdrCnt := 0
          crcAcc := crc32 s.cfg.crc (intronBytes s.intron) }
  | places (hd : s.dstate = .ah) (hc : s.hdrCnt ≠ 7) : Received b rdy s (headerByte b s)
  | receives (hd : s.dstate = .ah) (ha : accept s.cfg s.hdrKind s.hdrSize = true)
      (hk : isStreamed s.cfg s.hdrKind = false) (hn : s.hdrSize ≠ 0) :
      Received b rdy s (receiving (headerDone b s))
  | begins (hd : s.dstate = .ah) (ha : accept s.cfg s.hdrKind s.hdrSize = true)
      (hk : isStreamed s.cfg s.hdrKind = true) (hn : s.hdrSize ≠ 0) :
      Received b rdy s (begun rdy (headerDone b s))
  | counts (acc : BitVec 32) (m : Memory) (es : List Event) (hd : s.dstate = .rp ∨ s.dstate = .dp)
      (hmiddle : s.payCnt + 1 ≠ s.hdrSize) (htunnel : TunnelTo s es s.streamOpen) :
      Received b rdy s { s with crcAcc := acc, payCnt := s.payCnt + 1, scratch := m, history := s.history ++ es }
  | completes {u : State} (es : List Event) (hd : s.dstate ≠ .ai) (hrest : SameOutsideDeframer s u)
      (hu : u.history = s.history ++ es) (htunnel : TunnelTo s es false) : Received b rdy s (softResetColumn u)

/-- An empty CLIENTCONFIG_V2 is not accepted, even where two kinds share a code. -/
theorem not_accept_empty_config (cfg : Config) : accept cfg cfg.kindCode.clientConfigV2 0 = false := by
  simp [accept, KindCodes.code]

/-- An accepted kind of length 0 is no CLIENTCONFIG_V2. -/
theorem not_config_of_empty {s : State} (ha : accept s.cfg s.hdrKind s.hdrSize = true) (hn : s.hdrSize = 0) :
    s.hdrKind ≠ s.cfg.kindCode.clientConfigV2 := by
  intro hk
  rw [hk, hn, not_accept_empty_config] at ha
  cases ha

section Received

variable {mark : Nat} {s : State} (hs : Inv mark s) (b : Byte) (rdy : Bool)
include hs

omit hs in
theorem exec_rxByte_awaitingIntron (hd : s.dstate = .ai) :
    ∃ t, exec (.rxByte b rdy) s = .next t ∧ Received b rdy s t := by
  rw [exec_rxByte_intron b rdy hd]
  by_cases h : fillNext s.wfill = 8 ∧ winNext s.win b = be64 s.intron
  · exact ⟨_, congrArg _ (intronStep_match h), .found hd h.1 h.2⟩
  · exact ⟨_, congrArg _ (intronStep_no_match h), .searches hd⟩

theorem exec_rxByte_awaitingHeader (hd : s.dstate = .ah) :
    ∃ t, exec (.rxByte b rdy) s = .next t ∧ Received b rdy s t := by
  have ho := (hs.awaitingHeader hd).streamOpen
  by_cases hc : s.hdrCnt = 7
  case neg => exact ⟨_, exec_rxByte_headerByte b rdy hd hc, .places hd hc⟩
  have hdone : exec (.rxByte b rdy) s = finish s (headerComplete rdy (headerDone b s)) :=
    exec_rxByte_headerEnd b rdy hd hc
  have next {t : State} (ht : headerComplete rdy (headerDone b s) = .ok t) (h : Received b rdy s t) :
      ∃ t, exec (.rxByte b rdy) s = .next t ∧ Received b rdy s t := ⟨t, by rw [hdone, ht, finish_ok], h⟩
  have hai : s.dstate ≠ .ai := by simp [hd]
  have hclosed {es : List Event} (he : es.foldl tunnelNext (some false) = some false) : TunnelTo s es false := by
    rwa [TunnelTo, ho]
  cases ha : accept s.cfg s.hdrKind s.hdrSize
  · exact next (headerComplete_rejected (s := headerDone b s) ha ho)
      (.completes _ hai (by constructor <;> rfl) rfl (hclosed rfl))
  cases hk : isStreamed s.cfg s.hdrKind <;> by_cases hn : s.hdrSize = 0
  · have hconfig := not_config_of_empty ha hn
    exact next (headerComplete_dispatches (s := headerDone b s) ha hk hconfig hn ho)
      (.completes _ hai (by constructor <;> rfl) rfl (hclosed rfl))
  · exact next (headerComplete_receives (s := headerDone b s) ha hk hn) (.receives hd ha hk hn)
  · cases rdy
    · exact next (headerComplete_discards (s := headerDone b s) ha hk ho hn)
        (.completes _ hai (by constructor <;> rfl) rfl (hclosed rfl))
    · exact next (headerComplete_commits (s := headerDone b s) ha hk ho hn)
        (.completes _ hai (by constructor <;> rfl) rfl (hclosed rfl))
  · exact next (headerComplete_streams (s := headerDone b s) ha hk ho hn) (.begins hd ha hk hn)

theorem exec_rxByte_receivingPayload (hd : s.dstate = .rp) :
    ∃ t, exec (.rxByte b rdy) s = .next t ∧ Received b rdy s t := by
  obtain ⟨-, -, hcount, -, hopen, -, hfits⟩ := hs.receivingPayload hd
  have hai : s.dstate ≠ .ai := by simp [hd]
  have hdp : s.dstate ≠ .dp := by simp [hd]
  by_cases hlast : s.payCnt + 1 = s.hdrSize <;> cases hstr : s.streamed
  · have h64 : s.payCnt.toNat < 64 := lt_of_lt_of_le hcount (hfits hstr)
    have ho : s.streamOpen = false := hopen ▸ hstr
    have hclosed {es : List Event} (he : es.foldl tunnelNext (some false) = some false) : TunnelTo s es false := by
      rwa [TunnelTo, ho]
    refine ⟨_, exec_scratchByte_last b rdy hd hstr h64 hlast, ?_⟩
    by_cases hk : s.hdrKind = s.cfg.kindCode.clientConfigV2 ∧ crcValid (storeByte b s) = true
    · rw [complete_config (s := storeByte b s) hdp hstr ho hk.1 hk.2]
      exact .completes _ hai (by constructor <;> rfl) rfl (hclosed rfl)
    · rw [complete_dispatched (s := storeByte b s) hdp hstr ho hk]
      exact .completes _ hai (by constructor <;> rfl) rfl (hclosed rfl)
  · have ho : s.streamOpen = true := hopen ▸ hstr
    rw [exec_rxByte_streamed b rdy hd hstr, streamByte_last hdp hstr hlast]
    exact ⟨_, rfl, .completes _ hai (by constructor <;> rfl) rfl (by rw [TunnelTo, ho]; rfl)⟩
  · have h64 : s.payCnt.toNat < 64 := lt_of_lt_of_le hcount (hfits hstr)
    have hcounts := Received.counts (b := b) (rdy := rdy) (crcFold s.cfg.crc s.crcAcc b)
      (s.scratch.write s.payCnt.toNat b) [] (.inl hd) hlast rfl
    rw [List.append_nil] at hcounts
    exact ⟨_, exec_scratchByte_middle b rdy hd hstr h64 hlast, hcounts⟩
  · have ho : s.streamOpen = true := hopen ▸ hstr
    rw [exec_rxByte_streamed b rdy hd hstr, streamByte_before_last hlast]
    exact ⟨_, rfl, .counts _ _ _ (.inl hd) hlast (by rw [TunnelTo, ho]; rfl)⟩

theorem exec_rxByte_discardingPayload (hd : s.dstate = .dp) :
    ∃ t, exec (.rxByte b rdy) s = .next t ∧ Received b rdy s t := by
  have ho := (hs.discardingPayload hd).streamOpen
  have hai : s.dstate ≠ .ai := by simp [hd]
  rw [exec_rxByte_discarding hd]
  by_cases hlast : s.payCnt + 1 = s.hdrSize
  · rw [discardByte_last hd ho hlast]
    exact ⟨_, rfl, .completes [] hai (by constructor <;> rfl) (by simp) (by rw [TunnelTo, ho]; rfl)⟩
  · have hcounts := Received.counts (b := b) (rdy := rdy) (crcFold s.cfg.crc s.crcAcc b) s.scratch [] (.inr hd) hlast rfl
    rw [List.append_nil] at hcounts
    rw [discardByte_before_last hlast]
    exact ⟨_, rfl, hcounts⟩

/-- RX_BYTE does not fault, whatever DSTATE is. -/
theorem exec_rxByte_received : ∃ t, exec (.rxByte b rdy) s = .next t ∧ Received b rdy s t := by
  cases hd : s.dstate with
  | ai => exact exec_rxByte_awaitingIntron b rdy hd
  | ah => exact exec_rxByte_awaitingHeader hs b rdy hd
  | rp => exact exec_rxByte_receivingPayload hs b rdy hd
  | dp => exact exec_rxByte_discardingPayload hs b rdy hd

end Received

theorem Received.sameOutside {b : Byte} {rdy : Bool} {s t : State} (h : Received b rdy s t) :
    SameOutsideDeframer s t := by
  cases h with
  | places => exact (headerByte_leavesQueues b s).rest
  | completes es hd hrest =>
    obtain ⟨⟩ := hrest
    constructor <;> assumption
  | searches | found | receives | begins | counts => constructor <;> rfl

/-- The new events, along which the tunnel's protocol is kept. -/
theorem Received.events {b : Byte} {rdy : Bool} {s t : State} (hs : s.dstate = .ah → s.streamOpen = false)
    (h : Received b rdy s t) : ∃ es, t.history = s.history ++ es ∧ TunnelTo s es t.streamOpen := by
  cases h with
  | searches | found => exact ⟨[], (List.append_nil _).symm, rfl⟩
  | places =>
    obtain ⟨_, _, _, _, _, hw⟩ := headerByte_writes b s
    rw [hw]
    exact ⟨[], (List.append_nil _).symm, rfl⟩
  | receives => exact ⟨[], (List.append_nil _).symm, rfl⟩
  | begins hd => exact ⟨_, rfl, by rw [TunnelTo, hs hd]; rfl⟩
  | counts acc m es hd hmiddle htunnel => exact ⟨es, rfl, htunnel⟩
  | completes es hd hrest hu htunnel => exact ⟨es, hu, htunnel⟩

/-- Settles O25: no case of a reachable RX_BYTE is a fault. -/
theorem rxByteNeverFaults : Obligations.RxByteNeverFaults := by
  intro mark s b rdy hs
  obtain ⟨t, ht, hreceived⟩ := exec_rxByte_received hs b rdy
  obtain ⟨es, hes, -⟩ := hreceived.events fun hd => (hs.awaitingHeader hd).streamOpen
  exact ⟨t, ht, hreceived.sameOutside, es, hes.symm⟩

end Sys2Proof.Machine

/-! PROOFS. Every step keeps the invariants (10_state.md R47) and the tunnel's protocol (44_tunnel.md R270, R275). -/

namespace Sys2Proof.Machine

/-! ### The deframer's part of the invariants -/

/-- What 10_state.md R47 says of the deframer in each DSTATE. -/
inductive DeframerInv (mark : Nat) (s : State) : Prop
  | awaitingIntron (hd : s.dstate = .ai) (h : AwaitingIntronInv s) (hw : s.wfill.toNat ≤ 8)
  | awaitingHeader (hd : s.dstate = .ah) (h : AwaitingHeaderInv mark s)
  | receivingPayload (hd : s.dstate = .rp) (h : ReceivingPayloadInv s)
  | discardingPayload (hd : s.dstate = .dp) (h : DiscardingPayloadInv s)

theorem Inv.deframer {mark : Nat} {s : State} (h : Inv mark s) : DeframerInv mark s := by
  cases hd : s.dstate with
  | ai => exact .awaitingIntron hd (h.awaitingIntron hd) h.wfill
  | ah => exact .awaitingHeader hd (h.awaitingHeader hd)
  | rp => exact .receivingPayload hd (h.receivingPayload hd)
  | dp => exact .discardingPayload hd (h.discardingPayload hd)

theorem DeframerInv.inv {mark : Nat} {s : State} (h : DeframerInv mark s) (hcfg : s.cfg.wf = true)
    (hmark : mark ≤ s.history.length) (hr : s.r2s.length ≤ s.cfg.qcap) (hs : s.s2r.length ≤ s.cfg.qcap) :
    Inv mark s := by
  cases h with
  | awaitingIntron hd h hw =>
    exact ⟨hcfg, hmark, fun _ => h, by simp [hd], by simp [hd], by simp [hd], hw, by simp [h.hdrCnt], hr, hs⟩
  | awaitingHeader hd h =>
    exact ⟨hcfg, hmark, by simp [hd], fun _ => h, by simp [hd], by simp [hd], by simp [h.wfill],
      h.hdrCnt.trans (by decide), hr, hs⟩
  | receivingPayload hd h =>
    exact ⟨hcfg, hmark, by simp [hd], by simp [hd], fun _ => h, by simp [hd], by simp [h.wfill], by simp [h.hdrCnt],
      hr, hs⟩
  | discardingPayload hd h =>
    exact ⟨hcfg, hmark, by simp [hd], by simp [hd], by simp [hd], fun _ => h, by simp [h.wfill], by simp [h.hdrCnt],
      hr, hs⟩

/-- After a soft reset the deframer awaits the Intron with its counters clear. -/
theorem deframerInv_softResetColumn (mark : Nat) (s : State) : DeframerInv mark (softResetColumn s) :=
  .awaitingIntron rfl ⟨rfl, rfl, rfl, rfl, rfl⟩ (by simp [softResetColumn])

theorem fillNext_le (f : BitVec 4) : (fillNext f).toNat ≤ 8 := by
  simp only [fillNext, BitVec.toNat_ofNat]
  omega

/-- A length accepted for SCRATCH fits it. -/
theorem size_le_scratchSize {cfg : Config} (hcfg : cfg.wf = true) {k : Byte} {n : BitVec 16}
    (ha : accept cfg k n = true) (hk : isStreamed cfg k = false) : n.toNat ≤ Config.scratchSize := by
  obtain ⟨kind, rfl, hlen⟩ := (accept_iff hcfg k n).mp ha
  rw [isStreamed_code hcfg, decide_eq_false_iff_not] at hk
  rw [Config.scratchSize]
  cases kind
  case packetV2 => exact absurd rfl hk
  case deviceInfoV2 | clientConfigV2 | scanStart | scanStop | scanApCnt | scanApGet =>
    simp only [Kind.hasLength] at hlen
    omega

theorem payCnt_succ_lt {p n : BitVec 16} (hlt : p.toNat < n.toNat) (hne : p + 1 ≠ n) : (p + 1).toNat < n.toNat := by
  bv_omega

theorem payCnt_zero_lt {n : BitVec 16} (hn : n ≠ 0) : (0 : BitVec 16).toNat < n.toNat := by
  bv_omega

theorem Received.deframerInv {mark : Nat} {b : Byte} {rdy : Bool} {s t : State} (hs : Inv mark s)
    (h : Received b rdy s t) : DeframerInv (matchMark mark s t) t := by
  cases h with
  | searches hd =>
    obtain ⟨hcnt, hpay, hstr, ho, hacc⟩ := hs.awaitingIntron hd
    exact .awaitingIntron hd ⟨hcnt, hpay, hstr, ho, hacc⟩ (fillNext_le _)
  | found hd hfill hwin =>
    obtain ⟨-, hpay, hstr, ho, -⟩ := hs.awaitingIntron hd
    exact .awaitingHeader rfl ⟨by simp, hfill, .inl hwin, hpay, hstr, ho⟩
  | places hd hc =>
    obtain ⟨hcnt, hfill, hwin, hpay, hstr, ho⟩ := hs.awaitingHeader hd
    obtain ⟨k, v, n, acc, rx, hw⟩ := headerByte_writes b s
    rw [hw, matchMark, if_neg (by simp [hd])]
    refine .awaitingHeader hd ⟨?_, hfill, hwin, hpay, hstr, ho⟩
    show (s.hdrCnt + 1).toNat ≤ 7
    bv_omega
  | receives hd ha hk hn =>
    obtain ⟨-, hfill, -, -, -, ho⟩ := hs.awaitingHeader hd
    have hkind : s.hdrKind ≠ s.cfg.kindCode.code .packetV2 := of_decide_eq_false hk
    exact .receivingPayload rfl ⟨rfl, hfill, payCnt_zero_lt hn, ha, ho.symm, ⟨nofun, fun h => absurd h hkind⟩,
      fun _ => size_le_scratchSize hs.cfg ha hk⟩
  | begins hd ha hk hn =>
    obtain ⟨-, hfill, -, -, -, ho⟩ := hs.awaitingHeader hd
    have hkind : s.hdrKind = s.cfg.kindCode.code .packetV2 := of_decide_eq_true hk
    cases rdy
    · exact .discardingPayload rfl ⟨rfl, hfill, payCnt_zero_lt hn, hkind, rfl, rfl⟩
    · exact .receivingPayload rfl ⟨rfl, hfill, payCnt_zero_lt hn, ha, rfl, ⟨fun _ => hkind, fun _ => rfl⟩, nofun⟩
  | counts acc m es hd hmiddle =>
    rw [matchMark, if_neg (by obtain hd | hd := hd <;> simp [hd])]
    obtain hd | hd := hd
    · obtain ⟨hcnt, hfill, hpay, ha, ho, hkind, hfits⟩ := hs.receivingPayload hd
      exact .receivingPayload hd ⟨hcnt, hfill, payCnt_succ_lt hpay hmiddle, ha, ho, hkind, hfits⟩
    · obtain ⟨hcnt, hfill, hpay, hkind, hstr, ho⟩ := hs.discardingPayload hd
      exact .discardingPayload hd ⟨hcnt, hfill, payCnt_succ_lt hpay hmiddle, hkind, hstr, ho⟩
  | completes => exact deframerInv_softResetColumn _ _

theorem Received.inv {mark : Nat} {b : Byte} {rdy : Bool} {s t : State} (hs : Inv mark s)
    (h : Received b rdy s t) : Inv (matchMark mark s t) t := by
  obtain ⟨es, hes, -⟩ := h.events fun hd => (hs.awaitingHeader hd).streamOpen
  have hrest := h.sameOutside
  refine (h.deframerInv hs).inv (hrest.cfg ▸ hs.cfg) ?_ (hrest.r2s ▸ hrest.cfg ▸ hs.r2sCount)
    (hrest.s2r ▸ hrest.cfg ▸ hs.s2rCount)
  have hmark := hs.markBound
  rw [hes, List.length_append, matchMark]
  split <;> omega

/-! ### The other commands -/

/-- An event later than the mark stays later. -/
theorem mem_drop_append {e : Event} {h : List Event} {mark : Nat} (he : e ∈ h.drop mark) (es : List Event) :
    e ∈ (h ++ es).drop mark := by
  rw [List.drop_append]
  exact List.mem_append_left _ he

/-- With the deframer's registers as before and a longer history, its part of the invariants stays. -/
theorem DeframerInv.congr {mark : Nat} {s t : State} {es : List Event} (h : DeframerInv mark s)
    (hst : SameSerialState s t) (hcfg : t.cfg = s.cfg) (hhist : t.history = s.history ++ es) : DeframerInv mark t := by
  obtain ⟨hd, hintron, hwin, hfill, hacc, hcnt, hkind, -, hsize, -, hpay, hstr, ho, -, -⟩ := hst
  cases h with
  | awaitingIntron hai h hw =>
    obtain ⟨h1, h2, h3, h4, h5⟩ := h
    exact .awaitingIntron (hd.trans hai)
      ⟨hcnt.trans h1, hpay.trans h2, hstr.trans h3, ho.trans h4, hacc.trans h5⟩ (hfill ▸ hw)
  | awaitingHeader hah h =>
    obtain ⟨h1, h2, h3, h4, h5, h6⟩ := h
    refine .awaitingHeader (hd.trans hah)
      ⟨hcnt ▸ h1, hfill.trans h2, ?_, hpay.trans h4, hstr.trans h5, ho.trans h6⟩
    rw [hwin, hintron, hhist]
    exact h3.imp_right fun he => mem_drop_append he es
  | receivingPayload hrp h =>
    obtain ⟨h1, h2, h3, h4, h5, h6, h7⟩ := h
    refine .receivingPayload (hd.trans hrp) ⟨hcnt.trans h1, hfill.trans h2, ?_, ?_, ?_, ?_, ?_⟩
    · rwa [hpay, hsize]
    · rwa [hcfg, hkind, hsize]
    · rw [hstr, ho, h5]
    · rwa [hstr, hkind, hcfg]
    · rwa [hstr, hsize]
  | discardingPayload hdp h =>
    obtain ⟨h1, h2, h3, h4, h5, h6⟩ := h
    refine .discardingPayload (hd.trans hdp)
      ⟨hcnt.trans h1, hfill.trans h2, ?_, ?_, hstr.trans h5, ho.trans h6⟩
    · rwa [hpay, hsize]
    · rwa [hkind, hcfg]

theorem Inv.queueCount {mark : Nat} {s : State} (hs : Inv mark s) (q : QId) : (s.queue q).length ≤ s.cfg.qcap := by
  cases q
  · exact hs.r2sCount
  · exact hs.s2rCount

theorem length_queue_setQueue_le {s : State} {n : Nat} {q : QId} {es : List Entry}
    (hs : ∀ p, (s.queue p).length ≤ n) (hes : es.length ≤ n) (p : QId) : ((s.setQueue q es).queue p).length ≤ n := by
  by_cases hpq : p = q
  · rwa [hpq, State.setQueue_queue]
  · rw [State.setQueue_other s hpq]
    exact hs p

/-- A step that leaves the deframer's registers keeps the invariants when the queues stay within QCAP. -/
theorem Inv.congr {mark : Nat} {s t : State} {es : List Event} (hs : Inv mark s) (hst : SameSerialState s t)
    (hcfg : t.cfg = s.cfg) (hhist : t.history = s.history ++ es)
    (hq : ∀ q, (t.queue q).length ≤ s.cfg.qcap) : Inv mark t := by
  refine (hs.deframer.congr hst hcfg hhist).inv (hcfg ▸ hs.cfg) ?_ (hcfg ▸ hq .r2s) (hcfg ▸ hq .s2r)
  rw [hhist, List.length_append]
  exact Nat.le_add_right_of_le hs.markBound

/-- The Intron switch of the transmit side, told by its INTRON_SET (10_state.md R47 (b)). -/
theorem DeframerInv.switchIntron {mark : Nat} {s : State} (h : DeframerInv mark s) (hmark : mark ≤ s.history.length)
    (i : Intron) (e : Event) :
    DeframerInv mark (({ s with intron := i }.emit e).emit (.intronSet i .tx)) := by
  cases h with
  | awaitingIntron hd h hw =>
    obtain ⟨hcnt, hpay, hstr, ho, hacc⟩ := h
    exact .awaitingIntron hd ⟨hcnt, hpay, hstr, ho, hacc⟩ hw
  | awaitingHeader hd h =>
    obtain ⟨hcnt, hfill, -, hpay, hstr, ho⟩ := h
    refine .awaitingHeader hd ⟨hcnt, hfill, .inr ?_, hpay, hstr, ho⟩
    have hlen : mark ≤ (s.history ++ [e]).length := by
      rw [List.length_append]
      exact Nat.le_add_right_of_le hmark
    show Event.intronSet i .tx ∈ ((s.history ++ [e]) ++ [Event.intronSet i .tx]).drop mark
    rw [List.drop_append_of_le_length hlen]
    exact List.mem_append_right _ (List.mem_singleton.mpr rfl)
  | receivingPayload hd h =>
    obtain ⟨hcnt, hfill, hpay, ha, ho, hkind, hfits⟩ := h
    exact .receivingPayload hd ⟨hcnt, hfill, hpay, ha, ho, hkind, hfits⟩
  | discardingPayload hd h =>
    obtain ⟨hcnt, hfill, hpay, hkind, hstr, ho⟩ := h
    exact .discardingPayload hd ⟨hcnt, hfill, hpay, hkind, hstr, ho⟩

theorem deframerInv_softReset (mark : Nat) (s : State) : DeframerInv mark (softReset s) := by
  cases ho : s.streamOpen
  · rw [softReset_eq_softResetColumn ho]
    exact deframerInv_softResetColumn mark s
  · rw [softReset_open ho]
    exact deframerInv_softResetColumn mark _

theorem matchMark_of_eq {mark : Nat} {s t : State} (h : t.dstate = s.dstate) : matchMark mark s t = mark := by
  refine if_neg fun hd => ?_
  rw [h, hd.1] at hd
  exact absurd hd.2 nofun

theorem matchMark_of_ai {mark : Nat} {s t : State} (h : t.dstate = .ai) : matchMark mark s t = mark :=
  if_neg fun hd => by simp [h] at hd

section Commands

variable {mark : Nat} {s t : State} (hs : Inv mark s)
include hs

theorem exec_dfrReset_inv : Inv mark (softReset s) := by
  obtain ⟨hrest, es, hes, -⟩ := softReset_leavesQueues s
  refine (deframerInv_softReset mark s).inv (by simpa using hs.cfg) ?_ (by simpa using hs.r2sCount)
    (by simpa using hs.s2rCount)
  rw [hes, List.length_append]
  exact Nat.le_add_right_of_le hs.markBound

theorem exec_hwReset_inv : Inv mark (resetProcedure s) := by
  refine DeframerInv.inv (.awaitingIntron rfl ⟨rfl, rfl, rfl, rfl, rfl⟩ (by simp)) hs.cfg ?_ (Nat.zero_le _)
    (Nat.zero_le _)
  rw [resetProcedure_history, List.length_append]
  exact Nat.le_add_right_of_le hs.markBound

theorem exec_txMsg_inv {k v : Byte} {n : BitVec 16} {p : List Byte} (h : exec (.txMsg k v n p) s = .next t) :
    Inv mark t ∧ t.dstate = s.dstate := by
  cases ha : accept s.cfg k n
  · rw [exec_txMsg_rejected ha] at h
    cases h
    exact ⟨hs.congr (by constructor <;> rfl) rfl rfl hs.queueCount, rfl⟩
  by_cases hk : k = s.cfg.kindCode.clientConfigV2
  · rw [exec_txMsg_config ha hk] at h
    cases h
    refine ⟨(hs.deframer.switchIntron hs.markBound _ _).inv hs.cfg ?_ hs.r2sCount hs.s2rCount, rfl⟩
    rw [State.emit_history, State.emit_history, List.append_assoc, List.length_append]
    exact Nat.le_add_right_of_le hs.markBound
  · rw [exec_txMsg_other ha hk] at h
    cases h
    exact ⟨hs.congr (by constructor <;> rfl) rfl rfl hs.queueCount, rfl⟩

theorem exec_enq_inv {q : QId} {l : BitVec 16} {hd : BitVec 32} (h : exec (.enq q l hd) s = .next t) :
    Inv mark t ∧ t.dstate = s.dstate := by
  obtain ⟨-, k⟩ | ⟨-, hroom, k⟩ | ⟨-, -, k⟩ := exec_enq_cases q l hd s <;> rw [k] at h <;> cases h
  · exact ⟨hs.congr (by constructor <;> rfl) rfl (List.append_nil _).symm hs.queueCount, rfl⟩
  · refine ⟨hs.congr (es := [.qEnq q l hd]) (by constructor <;> simp) (by simp) (by simp) fun p => ?_, by simp⟩
    rw [State.emit_queue]
    exact length_queue_setQueue_le hs.queueCount (by simpa using hroom) p
  · exact ⟨hs.congr (by constructor <;> rfl) rfl rfl hs.queueCount, rfl⟩

theorem exec_deq_inv {q : QId} (h : exec (.deq q) s = .next t) : Inv mark t ∧ t.dstate = s.dstate := by
  cases hq : s.queue q with
  | nil =>
    rw [exec_deq_nil hq] at h
    cases h
    exact ⟨hs.congr (es := []) (by constructor <;> simp) (by simp) (by simp) (by simpa using hs.queueCount), by simp⟩
  | cons e es =>
    rw [exec_deq_cons hq] at h
    cases h
    have hes : es.length ≤ s.cfg.qcap := by
      have hcount := hs.queueCount q
      rw [hq, List.length_cons] at hcount
      omega
    refine ⟨hs.congr (es := [.qDeq q e.len e.handle]) (by constructor <;> simp) (by simp) (by simp) fun p => ?_, by simp⟩
    rw [State.emit_queue, State.setHeld_queue]
    exact length_queue_setQueue_le hs.queueCount hes p

theorem exec_rdState_inv (h : exec .rdState s = .next t) : Inv mark t ∧ t.dstate = s.dstate := by
  cases h
  exact ⟨hs.congr (by constructor <;> rfl) rfl rfl hs.queueCount, rfl⟩

/-- Each command of the port keeps the invariants. -/
theorem exec_command_inv {i : Instr} (hi : i.isCommand = true) (h : exec i s = .next t) : Inv (matchMark mark s t) t := by
  have keeps (ht : Inv mark t ∧ t.dstate = s.dstate) : Inv (matchMark mark s t) t := matchMark_of_eq ht.2 ▸ ht.1
  cases i with
  | rxByte b rdy =>
    obtain ⟨u, hu, hreceived⟩ := exec_rxByte_received hs b rdy
    obtain rfl : u = t := by simpa [hu] using h
    exact hreceived.inv hs
  | dfrReset =>
    cases h
    rw [matchMark_of_ai (softReset_dstate s)]
    exact exec_dfrReset_inv hs
  | txMsg => exact keeps (exec_txMsg_inv hs h)
  | enq => exact keeps (exec_enq_inv hs h)
  | deq => exact keeps (exec_deq_inv hs h)
  | rdState => exact keeps (exec_rdState_inv hs h)
  | hwReset =>
    cases h
    rw [matchMark_of_ai (resetProcedure_dstate s)]
    exact exec_hwReset_inv hs
  | deviceInfoV2 | clientConfigV2 | packetV2 | scanStart | scanStop | scanApCnt | scanApGetReq | scanApGetRsp => cases hi

end Commands

/-! ### A step runs only commands -/

/-- A step moves ports and turns, records a refusal, or runs a command; it runs no wire row. -/
theorem step_command_cases (s : State) :
    ∃ u, SameButPorts s u ∧
      (step s = .next u ∨ (∃ c, step s = .next (u.refuse c)) ∨ ∃ i, i.isCommand = true ∧ step s = exec i u) := by
  obtain ⟨u, hu, k | k | ⟨i, k, ⟨q, rfl⟩ | ⟨a, c, hi⟩⟩⟩ := step_cases s
  · exact ⟨u, hu, .inl k⟩
  · exact ⟨u, hu, .inr (.inl k)⟩
  · exact ⟨u, hu, .inr (.inr ⟨_, rfl, k⟩)⟩
  · obtain ⟨-, hno⟩ | ⟨o, -, -, hno⟩ | ⟨o, -, -, hdecode⟩ := admission_cases a c
    · simp [hno] at hi
    · simp [hno] at hi
    · exact ⟨u, hu, .inr (.inr ⟨i, isCommand_of_decodeCommand (hdecode ▸ hi), k⟩)⟩

/-- Ports and turns are none of the registers. -/
theorem SameButPorts.registers {s u : State} (h : SameButPorts s u) :
    SameSerialState s u ∧ u.cfg = s.cfg ∧ u.history = s.history ∧ u.fault = s.fault ∧ ∀ q, u.queue q = s.queue q := by
  obtain ⟨_, _, _, _, rfl⟩ := h
  refine ⟨by constructor <;> rfl, rfl, rfl, rfl, fun q => ?_⟩
  cases q <;> rfl

theorem SameButPorts.inv {mark : Nat} {s u : State} (h : SameButPorts s u) (hs : Inv mark s) : Inv mark u := by
  obtain ⟨hserial, hcfg, hhistory, -, hqueue⟩ := h.registers
  exact hs.congr (es := []) hserial hcfg (by simp [hhistory]) fun q => hqueue q ▸ hs.queueCount q

theorem SameButPorts.tunnelLedger {s u : State} (h : SameButPorts s u) (hs : TunnelLedger s) : TunnelLedger u := by
  obtain ⟨hserial, -, hhistory, -, -⟩ := h.registers
  rwa [TunnelLedger, hhistory, hserial.streamOpen]

theorem Inv.refuse {mark : Nat} {s : State} (hs : Inv mark s) (c : RefuseCode) : Inv mark (s.refuse c) :=
  hs.congr (es := []) (by constructor <;> rfl) rfl (List.append_nil _).symm fun q => by
    cases q
    exacts [hs.r2sCount, hs.s2rCount]

/-- Settles O48: ports, turns and refusals are no part of the invariants, and each command keeps them. -/
theorem stepKeepsInvariants : Obligations.StepKeepsInvariants := by
  intro mark s t hs h
  obtain ⟨u, hsame, k⟩ := step_command_cases s
  have hu := hsame.inv hs
  obtain ⟨hserial, -, hhistory, -, -⟩ := hsame.registers
  obtain k | ⟨c, k⟩ | ⟨i, hi, k⟩ := k <;> rw [k] at h
  · cases h
    rwa [matchMark_of_eq hserial.dstate]
  · cases h
    rw [matchMark_of_eq (t := u.refuse c) hserial.dstate]
    exact hu.refuse c
  · have ht := exec_command_inv hu hi h
    rwa [matchMark, hserial.dstate, hhistory] at ht

/-! ### The tunnel's protocol -/

theorem TunnelLedger.extend {s t : State} {es : List Event} (hs : TunnelLedger s) (hh : t.history = s.history ++ es)
    (he : TunnelTo s es t.streamOpen) : TunnelLedger t := by
  unfold TunnelLedger tunnelPhase at hs ⊢
  rw [hh, List.foldl_append, hs]
  exact he

/-- A Q_FREE is no event of the tunnel. -/
theorem foldl_tunnelNext_freeEvents (q : QId) (es : List Entry) (o : Bool) :
    (freeEvents q es).foldl tunnelNext (some o) = some o := by
  induction es with
  | nil => rfl
  | cons e es ih => exact ih

/-- HW_RESET abandons an open stream. -/
theorem tunnelTo_resetEvents (s : State) : TunnelTo s (resetEvents s) false := by
  rw [TunnelTo, resetEvents, List.foldl_append, List.foldl_append]
  have habandon : (if s.streamOpen then [Event.tunAbandon] else []).foldl tunnelNext (some s.streamOpen) = some false := by
    cases s.streamOpen <;> rfl
  rw [habandon, foldl_tunnelNext_freeEvents, foldl_tunnelNext_freeEvents]

theorem softReset_tunnelTo (s : State) : ∃ es, (softReset s).history = s.history ++ es ∧ TunnelTo s es false := by
  cases ho : s.streamOpen
  · exact ⟨[], by simp [ho], by rw [TunnelTo, ho]; rfl⟩
  · exact ⟨[.tunAbandon], by simp [ho], by rw [TunnelTo, ho]; rfl⟩

theorem exec_txMsg_tunnelTo {k v : Byte} {n : BitVec 16} {p : List Byte} {s t : State}
    (h : exec (.txMsg k v n p) s = .next t) : ∃ es, t.history = s.history ++ es ∧ TunnelTo s es t.streamOpen := by
  cases ha : accept s.cfg k n
  · rw [exec_txMsg_rejected ha] at h
    cases h
    exact ⟨_, rfl, rfl⟩
  by_cases hk : k = s.cfg.kindCode.clientConfigV2
  · rw [exec_txMsg_config ha hk] at h
    cases h
    exact ⟨[.txBytes (frame s.cfg.crc s.intron k v p), .intronSet (intronOf p) .tx], List.append_assoc _ _ _, rfl⟩
  · rw [exec_txMsg_other ha hk] at h
    cases h
    exact ⟨_, rfl, rfl⟩

theorem exec_enq_tunnelTo {q : QId} {l : BitVec 16} {hd : BitVec 32} {s t : State}
    (h : exec (.enq q l hd) s = .next t) : ∃ es, t.history = s.history ++ es ∧ TunnelTo s es t.streamOpen := by
  obtain ⟨-, k⟩ | ⟨-, -, k⟩ | ⟨-, -, k⟩ := exec_enq_cases q l hd s <;> rw [k] at h <;> cases h
  · exact ⟨[], (List.append_nil _).symm, rfl⟩
  · exact ⟨[.qEnq q l hd], by simp, by rw [State.emit_streamOpen, State.setQueue_streamOpen]; rfl⟩
  · exact ⟨[.qDrop q l hd], rfl, rfl⟩

theorem exec_deq_tunnelTo {q : QId} {s t : State} (h : exec (.deq q) s = .next t) :
    ∃ es, t.history = s.history ++ es ∧ TunnelTo s es t.streamOpen := by
  cases hq : s.queue q with
  | nil =>
    rw [exec_deq_nil hq] at h
    cases h
    exact ⟨[], by simp, by simp [TunnelTo]⟩
  | cons e es =>
    rw [exec_deq_cons hq] at h
    cases h
    refine ⟨[.qDeq q e.len e.handle], by simp, ?_⟩
    rw [State.emit_streamOpen, State.setHeld_streamOpen, State.setQueue_streamOpen]
    rfl

/-- Each command's events keep to the protocol, and lead to the STREAM_OPEN it leaves. -/
theorem exec_command_tunnelTo {mark : Nat} {i : Instr} {s t : State} (hs : Inv mark s) (hi : i.isCommand = true)
    (h : exec i s = .next t) : ∃ es, t.history = s.history ++ es ∧ TunnelTo s es t.streamOpen := by
  cases i with
  | rxByte b rdy =>
    obtain ⟨u, hu, hreceived⟩ := exec_rxByte_received hs b rdy
    obtain rfl : u = t := by simpa [hu] using h
    exact hreceived.events fun hd => (hs.awaitingHeader hd).streamOpen
  | dfrReset =>
    cases h
    rw [softReset_streamOpen]
    exact softReset_tunnelTo s
  | txMsg => exact exec_txMsg_tunnelTo h
  | enq => exact exec_enq_tunnelTo h
  | deq => exact exec_deq_tunnelTo h
  | rdState =>
    cases h
    exact ⟨_, rfl, rfl⟩
  | hwReset =>
    cases h
    exact ⟨_, rfl, tunnelTo_resetEvents s⟩
  | deviceInfoV2 | clientConfigV2 | packetV2 | scanStart | scanStop | scanApCnt | scanApGetReq | scanApGetRsp => cases hi

/-- Settles O51: only a command emits, and its events keep to the protocol. -/
theorem stepKeepsTunnelProtocol : Obligations.StepKeepsTunnelProtocol := by
  intro mark s t hs hledger h
  obtain ⟨u, hsame, k⟩ := step_command_cases s
  have hledgerU := hsame.tunnelLedger hledger
  obtain k | ⟨c, k⟩ | ⟨i, hi, k⟩ := k <;> rw [k] at h
  · cases h
    exact hledgerU
  · cases h
    exact hledgerU
  · obtain ⟨es, hes, htunnel⟩ := exec_command_tunnelTo (hsame.inv hs) hi h
    exact hledgerU.extend hes htunnel

/-! ### Faults -/

/-- Of the commands only ENQ faults. -/
theorem exec_command_fault {mark : Nat} {i : Instr} {s t : State} (hs : Inv mark s) (hi : i.isCommand = true)
    (h : exec i s = .next t) : ∀ f ∈ t.fault, f ∈ s.fault ∨ ∃ q hd, f = .handleReuse q hd := by
  have keeps (ht : t.fault = s.fault) : ∀ f ∈ t.fault, f ∈ s.fault ∨ ∃ q hd, f = .handleReuse q hd :=
    fun f hf => .inl (ht ▸ hf)
  cases i with
  | rxByte b rdy =>
    obtain ⟨u, hu, hreceived⟩ := exec_rxByte_received hs b rdy
    obtain rfl : u = t := by simpa [hu] using h
    exact keeps hreceived.sameOutside.fault
  | dfrReset =>
    cases h
    exact keeps (softReset_fault s)
  | txMsg => exact keeps (execTxMsg_leavesQueues h).rest.fault
  | enq q l hd =>
    obtain ⟨-, k⟩ | ⟨-, -, k⟩ | ⟨-, -, k⟩ := exec_enq_cases q l hd s <;> rw [k] at h <;> cases h
    · exact fun f hf => (mem_insertOnce.mp hf).imp_right fun he => ⟨q, hd, he⟩
    · exact keeps (by simp)
    · exact keeps rfl
  | deq q =>
    obtain ⟨-, k⟩ | ⟨e, es, -, k⟩ := execDeq_cases q s <;> rw [exec, k] at h <;> cases h <;> exact keeps (by simp)
  | rdState | hwReset =>
    cases h
    exact keeps rfl
  | deviceInfoV2 | clientConfigV2 | packetV2 | scanStart | scanStop | scanApCnt | scanApGetReq | scanApGetRsp => cases hi

/-- Settles O54: a step that is no command adds no fault. -/
theorem onlyHandleReuseIsReachable : Obligations.OnlyHandleReuseIsReachable := by
  intro mark s t hs h
  obtain ⟨u, hsame, k⟩ := step_command_cases s
  obtain ⟨-, -, -, hfault, -⟩ := hsame.registers
  rw [← hfault]
  obtain k | ⟨c, k⟩ | ⟨i, hi, k⟩ := k <;> rw [k] at h
  · cases h
    exact fun f hf => .inl hf
  · cases h
    exact fun f hf => .inl hf
  · exact exec_command_fault (hsame.inv hs) hi h

end Sys2Proof.Machine

/-! PROOFS. Who writes SCRATCH, INTRON and the serial domain's registers (20_memory.md R80, 10_state.md R32, 60_exceptions.md
R351): a payload byte, a configuration message or a hardware reset, and no step of the radio domain. -/

namespace Sys2Proof.Machine

/-- An instruction that is no command is a wire row. -/
theorem exists_wireRow {i : Instr} (hi : i.isCommand = false) : ∃ k v n r, WireRow i k v n r := by
  cases i with
  | rxByte | dfrReset | txMsg | enq | deq | rdState | hwReset => cases hi
  | deviceInfoV2 v => exact ⟨_, _, _, _, .deviceInfoV2 v⟩
  | clientConfigV2 v n => exact ⟨_, _, _, _, .clientConfigV2 v n⟩
  | packetV2 v n rdy => exact ⟨_, _, _, _, .packetV2 v n rdy⟩
  | scanStart v => exact ⟨_, _, _, _, .scanStart v⟩
  | scanStop v => exact ⟨_, _, _, _, .scanStop v⟩
  | scanApCnt v => exact ⟨_, _, _, _, .scanApCnt v⟩
  | scanApGetReq v => exact ⟨_, _, _, _, .scanApGetReq v⟩
  | scanApGetRsp v => exact ⟨_, _, _, _, .scanApGetRsp v⟩

/-- The other queue. -/
def otherQueue : QId → QId
  | .r2s => .s2r
  | .s2r => .r2s

theorem otherQueue_ne (q : QId) : otherQueue q ≠ q := by cases q <;> decide

/-! ### SCRATCH -/

section Scratch

@[simp] theorem dispatch_scratch (valid : Bool) (s : State) : (dispatch valid s).scratch = s.scratch := by
  obtain ⟨-, -, k⟩ | ⟨-, k⟩ := dispatch_cases valid s <;> rw [k]
  rfl

@[simp] theorem deliver_scratch (s : State) : (deliver s).scratch = s.scratch := by
  obtain ⟨-, k⟩ | ⟨-, -, k⟩ | ⟨-, -, k⟩ := deliver_cases s <;> simp [k]

@[simp] theorem complete_scratch (s : State) : (complete s).scratch = s.scratch := by simp [complete]

@[simp] theorem completeIfEmpty_scratch (s : State) : (completeIfEmpty s).scratch = s.scratch := by
  unfold completeIfEmpty
  split
  · exact complete_scratch s
  · rfl

@[simp] theorem badHeader_scratch (s : State) : (badHeader s).scratch = s.scratch := by simp [badHeader]

@[simp] theorem headerByte_scratch (b : Byte) (s : State) : (headerByte b s).scratch = s.scratch := by
  obtain ⟨_, _, _, _, _, k⟩ := headerByte_writes b s
  rw [k]

@[simp] theorem countPayload_scratch (s : State) : (countPayload s).scratch = s.scratch := by
  unfold countPayload
  split
  · exact complete_scratch _
  · rfl

variable {s t : State}

theorem headerComplete_keeps_scratch {rdy : Bool} (h : headerComplete rdy s = .ok t) : t.scratch = s.scratch := by
  obtain ⟨-, k⟩ | ⟨-, -, k⟩ | ⟨-, -, k⟩ := headerComplete_cases rdy s <;> rw [k] at h
  · cases h
    simp
  · obtain ⟨-, hb⟩ | ⟨-, -, hb⟩ | ⟨-, -, hb⟩ := beginStream_cases rdy { s with payCnt := 0 } <;> rw [hb] at h <;>
      cases h <;> simp
  · cases h
    simp

theorem headerStep_keeps_scratch {b : Byte} {rdy : Bool} (h : headerStep b rdy s = .ok t) : t.scratch = s.scratch := by
  simp only [headerStep] at h
  split at h
  · exact (headerComplete_keeps_scratch h).trans (headerByte_scratch b s)
  · cases h
    exact headerByte_scratch b s

/-- The instruction stores byte `b` to SCRATCH at PAY_CNT. -/
structure Stores (i : Instr) (s : State) (b : Byte) : Prop where
  rxByte : ∃ rdy, i = .rxByte b rdy
  receiving : s.dstate = .rp
  unstreamed : s.streamed = false
  fits : s.payCnt.toNat < 64

theorem exec_rxByte_scratch_cases {b : Byte} {rdy : Bool} (h : exec (.rxByte b rdy) s = .next t) :
    t.scratch = s.scratch ∨
      Stores (.rxByte b rdy) s b ∧ t.scratch = s.scratch.write s.payCnt.toNat b := by
  cases hd : s.dstate with
  | ai =>
    rw [exec_rxByte_intron b rdy hd] at h
    cases h
    obtain ⟨-, -, k⟩ | ⟨-, k⟩ := intronStep_cases b s <;> exact .inl (by rw [k])
  | ah =>
    rw [exec_rxByte_header b rdy hd] at h
    obtain ⟨u, hu, k⟩ | ⟨f, -, k⟩ := finish_cases s (headerStep b rdy s) <;> rw [k] at h <;> cases h
    · exact .inl (headerStep_keeps_scratch hu)
    · exact .inl rfl
  | rp =>
    cases hs : s.streamed
    · rw [exec_rxByte_scratch b rdy hd hs] at h
      by_cases hfits : s.payCnt.toNat < 64
      · rw [scratchByte_stored b hfits] at h
        cases h
        exact .inr ⟨⟨⟨rdy, rfl⟩, hd, hs, hfits⟩, countPayload_scratch _⟩
      · rw [scratchByte_overflow b (Nat.not_lt.mp hfits)] at h
        cases h
        exact .inl rfl
    · rw [exec_rxByte_streamed b rdy hd hs] at h
      cases h
      exact .inl (countPayload_scratch _)
  | dp =>
    rw [exec_rxByte_discarding hd] at h
    cases h
    exact .inl (countPayload_scratch _)

theorem exec_wireRow_keeps_scratch {i : Instr} (h : exec i s = .next t) (hi : i.isCommand = false) :
    t.scratch = s.scratch := by
  obtain ⟨k, v, n, r, hrow⟩ := exists_wireRow hi
  rw [exec_wireRow hrow] at h
  obtain ⟨u, hu, hnext⟩ | ⟨f, -, hnext⟩ := finish_cases s (headerComplete r (latchHeader k v n s)) <;>
    rw [hnext] at h <;> cases h
  · exact headerComplete_keeps_scratch (s := latchHeader k v n s) hu
  · rfl

theorem exec_txMsg_keeps_scratch {k v : Byte} {n : BitVec 16} {p : List Byte} (h : exec (.txMsg k v n p) s = .next t) :
    t.scratch = s.scratch := by
  cases ha : accept s.cfg k n
  · rw [exec_txMsg_rejected ha] at h
    cases h
    rfl
  by_cases hk : k = s.cfg.kindCode.clientConfigV2
  · rw [exec_txMsg_config ha hk] at h
    cases h
    rfl
  · rw [exec_txMsg_other ha hk] at h
    cases h
    rfl

/-- Only a payload byte stores to SCRATCH. -/
theorem exec_scratch_cases {i : Instr} (h : exec i s = .next t) :
    t.scratch = s.scratch ∨ ∃ b, Stores i s b ∧ t.scratch = s.scratch.write s.payCnt.toNat b := by
  cases i with
  | rxByte b rdy => exact (exec_rxByte_scratch_cases h).imp_right fun hstores => ⟨b, hstores⟩
  | dfrReset =>
    cases h
    exact .inl (softReset_scratch s)
  | txMsg => exact .inl (exec_txMsg_keeps_scratch h)
  | enq q => exact .inl (exec_enq_leavesQueue (otherQueue_ne q) h).serial.scratch
  | deq q => exact .inl (exec_deq_leavesQueue (otherQueue_ne q) h).serial.scratch
  | rdState | hwReset =>
    cases h
    exact .inl rfl
  | deviceInfoV2 | clientConfigV2 | packetV2 | scanStart | scanStop | scanApCnt | scanApGetReq | scanApGetRsp =>
    exact .inl (exec_wireRow_keeps_scratch h rfl)

end Scratch

/-- Settles O49: a fetch leaves SCRATCH, and a store keeps its form. -/
theorem stepKeepsScratchCanonical : Obligations.StepKeepsScratchCanonical := by
  intro s t hs h
  obtain ⟨u, ⟨_, _, _, _, rfl⟩, k | ⟨c, k⟩ | ⟨i, k, -⟩⟩ := step_cases s <;> rw [k] at h
  · cases h
    exact hs
  · cases h
    exact hs
  · obtain hkept | ⟨b, hstores, hwrite⟩ := exec_scratch_cases h
    · rw [ScratchCanonical, hkept]
      exact hs
    · rw [ScratchCanonical, hwrite]
      exact Memory.write_wf hs hstores.fits b

/-- Settles O50: a read elsewhere than at the stored index. -/
theorem onlyPayloadByteStoresToScratch : Obligations.OnlyPayloadByteStoresToScratch := by
  intro s t i a hcanon h helsewhere
  obtain hkept | ⟨b, ⟨⟨rdy, hi⟩, hd, hs, -⟩, hwrite⟩ := exec_scratch_cases h
  · rw [hkept]
  · rw [hwrite, Memory.read_write hcanon, if_neg (helsewhere ⟨b, rdy, hi⟩ hd hs).symm]

/-! ### The radio domain -/

theorem SameSerialState.trans {s t u : State} (h : SameSerialState s t) (k : SameSerialState t u) :
    SameSerialState s u := by
  obtain ⟨⟩ := h
  obtain ⟨⟩ := k
  constructor <;> simp only [*]

/-- The radio domain may issue ENQ, DEQ and RD_STATE. -/
theorem admission_radio {c : Command} {i : Instr} (h : admission .radio c = .ok i) :
    (∃ q l hd, i = .enq q l hd) ∨ (∃ q, i = .deq q) ∨ i = .rdState := by
  obtain ⟨-, k⟩ | ⟨o, -, -, k⟩ | ⟨o, ho, hissue, k⟩ := admission_cases .radio c <;> rw [k] at h
  · cases h
  · cases h
  obtain ⟨o', hrow, hoperands⟩ := decodeCommand_ok h
  obtain rfl : o = o' := Option.some.inj (ho.symm.trans (meetsRow_iff.mp hrow).1)
  cases o
  case enq =>
    cases hoperands
    exact .inl ⟨_, _, _, rfl⟩
  case deq =>
    cases hoperands
    exact .inr (.inl ⟨_, rfl⟩)
  case rdState =>
    cases hoperands
    exact .inr (.inr rfl)
  case rxByte | dfrReset | txMsg | hwReset => cases hissue

/-- ENQ, DEQ and RD_STATE leave the serial domain's registers. -/
theorem exec_admitted_radio {c : Command} {i : Instr} (hi : admission .radio c = .ok i) {s t : State}
    (h : exec i s = .next t) : SameSerialState s t := by
  obtain ⟨q, l, hd, rfl⟩ | ⟨q, rfl⟩ | rfl := admission_radio hi
  · exact (exec_enq_leavesQueue (otherQueue_ne q) h).serial
  · exact (exec_deq_leavesQueue (otherQueue_ne q) h).serial
  · cases h
    constructor <;> rfl

/-- Settles O55: the radio domain's turn moves ports and turns, records a refusal, or runs a command that leaves the
serial domain's registers. -/
theorem radioStepsLeaveSerialState : Obligations.RadioStepsLeaveSerialState := by
  intro s t ts hturn h
  obtain ⟨u, hu, k⟩ | ⟨a, ts', q, -, -, -, -, k⟩ | ⟨a, ts', c, cs, hturn', -, -, k⟩ := fetch_cases s <;>
    simp only [step, k] at h
  · cases h
    exact hu.registers.1
  · exact (SameButPorts.turns s ts').registers.1.trans (exec_deq_leavesQueue (otherQueue_ne q) h).serial
  · obtain ⟨rfl, -⟩ : .radio = a ∧ ts = ts' := List.cons.inj (hturn.symm.trans hturn')
    refine (SameButPorts.setPending s ts' .radio cs).registers.1.trans ?_
    cases hc : admission .radio c with
    | error e =>
      rw [hc] at h
      cases h
      constructor <;> rfl
    | ok i =>
      rw [hc] at h
      exact exec_admitted_radio hc h

end Sys2Proof.Machine

/-! PROOFS. Who changes INTRON (10_state.md R32): on the receive side only the completion of a valid CLIENTCONFIG_V2. -/

namespace Sys2Proof.Machine

section Completion

variable {s t : State}

/-- The completion of a message switches the Intron only for a valid CLIENTCONFIG_V2 in SCRATCH, and says so. -/
structure Switches (s : State) : Prop where
  dstate : s.dstate ≠ .dp
  unstreamed : s.streamed = false
  kind : s.hdrKind = s.cfg.kindCode.clientConfigV2
  valid : s.crcAcc = s.crcRx
  intron : (complete s).intron = intronOf (memRead s.scratch 0 8)
  event : Event.intronSet (complete s).intron .rx ∈ (complete s).history.drop s.history.length

/-- A soft reset keeps the events after any point of the history. -/
theorem mem_softReset_history_drop {e : Event} {n : Nat} (h : e ∈ s.history.drop n) : e ∈ (softReset s).history.drop n := by
  rw [softReset_history]
  split
  · exact mem_drop_append h _
  · exact h

theorem complete_intron_cases (s : State) : (complete s).intron = s.intron ∨ Switches s := by
  obtain ⟨-, k⟩ | ⟨-, -, k⟩ | ⟨hd, hs, k⟩ := deliver_cases s
  · exact .inl (by simp [complete, k])
  · exact .inl (by simp [complete, k])
  obtain ⟨hkind, hvalid, kd⟩ | ⟨-, kd⟩ := dispatch_cases (crcValid s) s
  · have hintron : (complete s).intron = intronOf (memRead s.scratch 0 8) := by simp [complete, k, kd]
    refine .inr ⟨hd, hs, hkind, of_decide_eq_true hvalid, hintron, ?_⟩
    rw [hintron]
    refine mem_softReset_history_drop ?_
    simp [k, kd]
  · exact .inl (by simp [complete, k, kd])

theorem completeIfEmpty_intron (h : ¬ (s.hdrSize = 0 ∧ Switches s)) : (completeIfEmpty s).intron = s.intron := by
  unfold completeIfEmpty
  split
  next hempty => exact (complete_intron_cases s).resolve_right fun hs => h ⟨hempty.2, hs⟩
  next => rfl

theorem headerComplete_keeps_intron {rdy : Bool} (h : headerComplete rdy s = .ok t) : t.intron = s.intron := by
  obtain ⟨-, k⟩ | ⟨-, -, k⟩ | ⟨ha, -, k⟩ := headerComplete_cases rdy s <;> rw [k] at h
  · cases h
    rw [completeIfEmpty_badHeader, badHeader, softReset_intron]
    rfl
  · obtain ⟨-, hb⟩ | ⟨-, -, hb⟩ | ⟨-, -, hb⟩ := beginStream_cases rdy { s with payCnt := 0 } <;> rw [hb] at h <;>
      cases h
    · exact completeIfEmpty_intron fun hs => nomatch hs.2.unstreamed
    · exact completeIfEmpty_intron fun hs => hs.2.dstate rfl
  · cases h
    refine completeIfEmpty_intron fun hs => ?_
    exact not_config_of_empty ha hs.1 hs.2.kind

theorem headerByte_intron (b : Byte) (s : State) : (headerByte b s).intron = s.intron := by
  obtain ⟨_, _, _, _, _, k⟩ := headerByte_writes b s
  rw [k]

theorem headerStep_keeps_intron {b : Byte} {rdy : Bool} (h : headerStep b rdy s = .ok t) : t.intron = s.intron := by
  simp only [headerStep] at h
  split at h
  · exact (headerComplete_keeps_intron h).trans (headerByte_intron b s)
  · cases h
    exact headerByte_intron b s

theorem countPayload_intron_cases (s : State) :
    (countPayload s).intron = s.intron ∨
      s.payCnt + 1 = s.hdrSize ∧ countPayload s = complete { s with payCnt := s.payCnt + 1 } ∧
        Switches { s with payCnt := s.payCnt + 1 } := by
  by_cases hlast : s.payCnt + 1 = s.hdrSize
  · rw [countPayload_last hlast]
    exact (complete_intron_cases _).imp_right fun hs => ⟨hlast, rfl, hs⟩
  · rw [countPayload_before_last hlast]
    exact .inl rfl

end Completion

/-! ### RX_BYTE -/

/-- The byte `b` is the last of the payload of a CLIENTCONFIG_V2 in SCRATCH whose checksum is then valid. -/
structure CompletesConfig (b : Byte) (s : State) : Prop where
  receiving : s.dstate = .rp
  unstreamed : s.streamed = false
  kind : s.hdrKind = s.cfg.kindCode.clientConfigV2
  last : s.payCnt + 1 = s.hdrSize
  valid : crcFold s.cfg.crc s.crcAcc b = s.crcRx

theorem exec_rxByte_intron_cases {b : Byte} {rdy : Bool} {s t : State} (h : exec (.rxByte b rdy) s = .next t) :
    t.intron = s.intron ∨
      CompletesConfig b s ∧ t.intron = intronOf (memRead t.scratch 0 8) ∧
        Event.intronSet t.intron .rx ∈ t.history.drop s.history.length := by
  cases hd : s.dstate with
  | ai =>
    rw [exec_rxByte_intron b rdy hd] at h
    cases h
    obtain ⟨-, -, k⟩ | ⟨-, k⟩ := intronStep_cases b s <;> exact .inl (by rw [k])
  | ah =>
    rw [exec_rxByte_header b rdy hd] at h
    obtain ⟨u, hu, k⟩ | ⟨f, -, k⟩ := finish_cases s (headerStep b rdy s) <;> rw [k] at h <;> cases h
    · exact .inl (headerStep_keeps_intron hu)
    · exact .inl rfl
  | rp =>
    cases hs : s.streamed
    · rw [exec_rxByte_scratch b rdy hd hs] at h
      by_cases hfits : s.payCnt.toNat < 64
      · rw [scratchByte_stored b hfits] at h
        cases h
        obtain hkept | ⟨hlast, hcomplete, hswitch⟩ := countPayload_intron_cases
          { foldByte s b with scratch := s.scratch.write s.payCnt.toNat b }
        · exact .inl hkept
        · rw [hcomplete, complete_scratch]
          exact .inr ⟨⟨hd, hs, hswitch.kind, hlast, hswitch.valid⟩, hswitch.intron, hswitch.event⟩
      · rw [scratchByte_overflow b (Nat.not_lt.mp hfits)] at h
        cases h
        exact .inl rfl
    · rw [exec_rxByte_streamed b rdy hd hs] at h
      cases h
      exact .inl ((countPayload_intron_cases _).resolve_right fun hlast => by
        simpa [hs] using hlast.2.2.unstreamed)
  | dp =>
    rw [exec_rxByte_discarding hd] at h
    cases h
    exact .inl ((countPayload_intron_cases _).resolve_right fun hlast => hlast.2.2.dstate hd)

theorem exec_wireRow_keeps_intron {i : Instr} {s t : State} (h : exec i s = .next t) (hi : i.isCommand = false) :
    t.intron = s.intron := by
  obtain ⟨k, v, n, r, hrow⟩ := exists_wireRow hi
  rw [exec_wireRow hrow] at h
  obtain ⟨u, hu, hnext⟩ | ⟨f, -, hnext⟩ := finish_cases s (headerComplete r (latchHeader k v n s)) <;>
    rw [hnext] at h <;> cases h
  · exact headerComplete_keeps_intron (s := latchHeader k v n s) hu
  · rfl

/-- Settles O56: TX_MSG, the last byte of a received configuration and HW_RESET; no other instruction writes INTRON. -/
theorem intronChangesOnlyByConfigOrReset : Obligations.IntronChangesOnlyByConfigOrReset := by
  intro s t i h hne
  cases i with
  | rxByte b rdy =>
    obtain ⟨⟨hd, hs, hkind, hlast, hvalid⟩, hintron, hevent⟩ := (exec_rxByte_intron_cases h).resolve_left hne
    exact .inr (.inl ⟨b, rdy, rfl, hd, hs, hkind, hlast, hvalid, hintron, hevent⟩)
  | txMsg k v n p =>
    cases ha : accept s.cfg k n
    · rw [exec_txMsg_rejected ha] at h
      cases h
      exact absurd rfl hne
    by_cases hk : k = s.cfg.kindCode.clientConfigV2
    · subst hk
      rw [exec_txMsg_config ha rfl] at h
      cases h
      exact .inl ⟨v, n, p, rfl, ha, rfl, List.append_assoc _ _ _⟩
    · rw [exec_txMsg_other ha hk] at h
      cases h
      exact absurd rfl hne
  | hwReset =>
    cases h
    exact .inr (.inr ⟨rfl, rfl⟩)
  | dfrReset =>
    cases h
    exact absurd (softReset_intron s) hne
  | enq q => exact absurd (exec_enq_leavesQueue (otherQueue_ne q) h).serial.intron hne
  | deq q => exact absurd (exec_deq_leavesQueue (otherQueue_ne q) h).serial.intron hne
  | rdState =>
    cases h
    exact absurd rfl hne
  | deviceInfoV2 | clientConfigV2 | packetV2 | scanStart | scanStop | scanApCnt | scanApGetReq | scanApGetRsp =>
    exact absurd (exec_wireRow_keeps_intron h rfl) hne

end Sys2Proof.Machine

/-! PROOFS. The Intron search (43_deframer.md R221): the window is the last 8 bytes, so from a fresh search the match comes
exactly at the end of garbage and Intron when no earlier window is the Intron (42_framer.md R205). -/

namespace Sys2Proof.Machine

/-! ### The window as the last 8 bytes -/

@[simp] theorem intronOf_intronBytes (i : Intron) : intronOf (intronBytes i) = i := rfl

theorem intronBytes_intronOf {l : List Byte} (h : l.length = 8) : intronBytes (intronOf l) = l := by
  match l, h with
  | [_, _, _, _, _, _, _, _], _ => rfl

theorem extractLsb'_winNext_low (w : BitVec 64) (b : Byte) : (winNext w b).extractLsb' 0 8 = b := by
  apply BitVec.eq_of_getLsbD_eq
  intro j hj
  have h64 : j < 64 := by omega
  simp [winNext, hj, h64]

theorem extractLsb'_winNext_high (w : BitVec 64) (b : Byte) {lo n : Nat} (hlo : 8 ≤ lo) (hn : lo + n ≤ 64) :
    (winNext w b).extractLsb' lo n = w.extractLsb' (lo - 8) n := by
  apply BitVec.eq_of_getLsbD_eq
  intro j hj
  have h64 : lo + j < 64 := by omega
  have h8 : ¬ lo + j < 8 := by omega
  have hb : b.getLsbD (lo + j) = false := BitVec.getLsbD_of_ge _ _ (by omega)
  have hsub : lo + j - 8 = lo - 8 + j := by omega
  have hw : lo - 8 + j < 64 := by omega
  simp [winNext, hj, h64, h8, hb, hsub, BitVec.getLsbD_eq_getElem hw]

/-- Eight shifts replace the window. -/
theorem foldl_winNext_intronBytes (w : BitVec 64) (i : Intron) : (intronBytes i).foldl winNext w = be64 i := by
  refine (eq_iff_agree [8, 8, 8, 8, 8, 8, 8, 8] rfl).mpr ?_
  simp [intronBytes, be64, extractLsb'_winNext_low, extractLsb'_winNext_high, BitVec.extractLsb'_or]

theorem be64_injective : Function.Injective be64 := by
  intro i j h
  have hfields := (eq_iff_agree [8, 8, 8, 8, 8, 8, 8, 8] rfl).mp h
  simp [be64, BitVec.extractLsb'_or] at hfields
  cases i
  cases j
  simp_all

/-- A window of at least 8 bytes holds the Intron exactly when its last 8 bytes are the Intron. -/
theorem foldl_winNext_eq_be64_iff (w : BitVec 64) (a : List Byte) {l : List Byte} (hl : l.length = 8) (i : Intron) :
    (a ++ l).foldl winNext w = be64 i ↔ l = intronBytes i := by
  have hwin : (a ++ l).foldl winNext w = be64 (intronOf l) := by
    rw [List.foldl_append]
    conv_lhs => rw [← intronBytes_intronOf hl]
    exact foldl_winNext_intronBytes _ _
  rw [hwin, be64_injective.eq_iff]
  exact ⟨fun h => by rw [← h, intronBytes_intronOf hl], fun h => by rw [h, intronOf_intronBytes]⟩

/-! ### Searching -/

/-- The state after the bytes `l` of a search that has not matched. -/
def searched (l : List Byte) (s : State) : State :=
  { s with win := l.foldl winNext s.win, wfill := BitVec.ofNat 4 (min l.length 8) }

/-- The state at the match: the Intron is in the window and the checksum is seeded (43_deframer.md R221). -/
def matched (s : State) : State :=
  { s with
    win := be64 s.intron, wfill := 8, dstate := .ah, hdrCnt := 0
    crcAcc := crc32 s.cfg.crc (intronBytes s.intron) }

theorem fillNext_searched (l : List Byte) (s : State) :
    fillNext (searched l s).wfill = BitVec.ofNat 4 (min (l.length + 1) 8) := by
  simp only [searched, fillNext, BitVec.toNat_ofNat]
  congr 1
  omega

/-- No window of the search so far was the Intron. -/
def NoMatchIn (l : List Byte) (s : State) : Prop :=
  ∀ j, 8 ≤ j → j ≤ l.length → (l.take j).foldl winNext s.win ≠ be64 s.intron

theorem NoMatchIn.init {l : List Byte} {b : Byte} {s : State} (h : NoMatchIn (l ++ [b]) s) : NoMatchIn l s := by
  intro j h8 hj
  have hno := h j h8 (by simp; omega)
  rwa [List.take_append_of_le_length hj] at hno

theorem process_searched {s : State} (hs : FreshIntronSearch s) (rdy : Bool) {l : List Byte} (h : NoMatchIn l s) :
    process rdy l s = .next (searched l s) := by
  induction l using List.reverseRecOn with
  | nil =>
    have hfill : searched [] s = { s with wfill := 0 } := rfl
    rw [hfill, ← hs.wfill]
    rfl
  | append_singleton l b ih =>
    have hno : ¬ (fillNext (searched l s).wfill = 8 ∧ winNext (searched l s).win b = be64 s.intron) := by
      rintro ⟨hfill, hwin⟩
      rw [fillNext_searched] at hfill
      have hlen : 8 ≤ (l ++ [b]).length := by
        rw [List.length_append, List.length_singleton]
        bv_omega
      refine h _ hlen le_rfl ?_
      rw [List.take_length, List.foldl_append]
      exact hwin
    rw [process_append_next (ih h.init),
      process_cons_next ((exec_rxByte_intron (s := searched l s) b rdy hs.dstate).trans
        (congrArg _ (intronStep_no_match hno))), process_nil, fillNext_searched]
    simp [searched, List.foldl_append]

theorem process_matched {s : State} (hs : FreshIntronSearch s) (rdy : Bool) {l : List Byte} {b : Byte}
    (h : NoMatchIn l s) (hlen : 7 ≤ l.length) (hmatch : (l ++ [b]).foldl winNext s.win = be64 s.intron) :
    process rdy (l ++ [b]) s = .next (matched s) := by
  have hwin : winNext (searched l s).win b = be64 s.intron := by
    rw [← hmatch, List.foldl_append]
    rfl
  have hfill : fillNext (searched l s).wfill = 8 := by
    rw [fillNext_searched, min_eq_right (by omega)]
    rfl
  rw [process_append_next (process_searched hs rdy h),
    process_cons_next ((exec_rxByte_intron (s := searched l s) b rdy hs.dstate).trans
        (congrArg _ (intronStep_match ⟨hfill, hwin⟩))),
    process_nil, hwin, hfill]
  rfl

/-- Garbage in which the Intron does not come early, and the Intron. -/
theorem process_intron {s : State} (hs : FreshIntronSearch s) (rdy : Bool) {g : List Byte}
    (hg : NoEarlyMatch g s.intron) : process rdy (g ++ intronBytes s.intron) s = .next (matched s) := by
  obtain ⟨l, b, hl⟩ : ∃ l b, g ++ intronBytes s.intron = l ++ [b] :=
    ⟨g ++ (intronBytes s.intron).dropLast, s.intron.b7, by simp [intronBytes]⟩
  have hlen : l.length = g.length + 7 := by
    have := congrArg List.length hl
    simp at this
    omega
  rw [hl]
  refine process_matched hs rdy (fun j h8 hj => ?_) (by omega) ?_
  · have hsplit : l.take j = l.take (j - 8) ++ (l.drop (j - 8)).take 8 := by
      rw [← List.take_add]
      congr 1
      omega
    have hwindow : ((g ++ intronBytes s.intron).drop (j - 8)).take 8 = (l.drop (j - 8)).take 8 := by
      rw [hl, List.drop_append_of_le_length (by omega), List.take_append_of_le_length (by simp; omega)]
    rw [hsplit, Ne, foldl_winNext_eq_be64_iff _ _ (by simp; omega), ← hwindow]
    exact hg (j - 8) (by omega)
  · rw [← hl, foldl_winNext_eq_be64_iff _ _ rfl]

end Sys2Proof.Machine

/-! PROOFS. Whole messages (42_framer.md R205, R238; 44_tunnel.md R277): garbage, Intron and header lead to the completed
header, each payload byte to the next, and the last one to Complete. -/

namespace Sys2Proof.Machine

/-! ### The header -/

/-- The state at the completion of a message's header. -/
def headerRead (k v : Byte) (n : BitVec 16) (c : BitVec 32) (s : State) : State :=
  { s with
    win := be64 s.intron, wfill := 8, dstate := .ah, hdrCnt := 8, hdrKind := k, hdrVar := v, hdrSize := n
    crcAcc := crc32 s.cfg.crc (frameHead s.intron k v n), crcRx := c }

/-- Garbage, Intron, header fields and checksum run the completion of the header. -/
theorem process_head {s t : State} {rdy : Bool} (hs : FreshIntronSearch s) {g : List Byte}
    (hg : NoEarlyMatch g s.intron) {k v : Byte} {n : BitVec 16} {c : BitVec 32}
    (ht : headerComplete rdy (headerRead k v n c s) = .ok t) :
    process rdy (g ++ (frameHead s.intron k v n ++ be32 c)) s = .next t := by
  have hbytes : g ++ (frameHead s.intron k v n ++ be32 c) =
      (g ++ intronBytes s.intron) ++ ([k, v] ++ be16 n ++ be32 c) := by simp [frameHead]
  rw [hbytes, process_append_next (process_intron hs rdy hg)]
  refine process_header (s := matched s) rfl rfl k v n c ?_
  rw [← ht, headerRead, frameHead, List.append_assoc, crc32_append]
  rfl

/-! ### The payload -/

/-- The state once the payload bytes `q` are folded and counted, with SCRATCH `m` and history `h`. -/
def counted (u : State) (m : Memory) (h : List Event) (q : List Byte) : State :=
  { u with
    crcAcc := q.foldl (crcFold u.cfg.crc) u.crcAcc, payCnt := BitVec.ofNat 16 q.length, scratch := m, history := h }

theorem counted_nil {u : State} (h : u.payCnt = 0) : counted u u.scratch u.history [] = u := by
  have hpay : counted u u.scratch u.history [] = { u with payCnt := 0 } := rfl
  rw [hpay, ← h]

theorem payCnt_succ (q : List Byte) (b : Byte) :
    BitVec.ofNat 16 q.length + 1 = BitVec.ofNat 16 (q ++ [b]).length := by
  rw [List.length_append, List.length_singleton, BitVec.ofNat_add]
  rfl

theorem payCnt_ne {n m : Nat} (h : n < m) (hm : m ≤ 65535) : BitVec.ofNat 16 n ≠ BitVec.ofNat 16 m := by
  bv_omega

section Payload

variable {rdy : Bool} {u : State} {m : List Byte → Memory} {h : List Byte → List Event} {p : List Byte}

/-- A payload byte takes SCRATCH from `m q` to `m (q ++ [b])` and the history from `h q` to `h (q ++ [b])`, and is counted. -/
def TakesByte (rdy : Bool) (u : State) (m : List Byte → Memory) (h : List Byte → List Event) (q : List Byte) (b : Byte) :
    Prop :=
  exec (.rxByte b rdy) (counted u (m q) (h q) q) =
    .next (countPayload
      { counted u (m (q ++ [b])) (h (q ++ [b])) (q ++ [b]) with payCnt := BitVec.ofNat 16 q.length })

variable (hsize : u.hdrSize = BitVec.ofNat 16 p.length)
include hsize

/-- A byte before the last goes on. -/
theorem TakesByte.before_last {q : List Byte} {b : Byte} (hb : TakesByte rdy u m h q b)
    (hq : (q ++ [b]).length < p.length) (hp : p.length ≤ 65535) :
    exec (.rxByte b rdy) (counted u (m q) (h q) q) =
      .next (counted u (m (q ++ [b])) (h (q ++ [b])) (q ++ [b])) := by
  refine hb.trans (congrArg _ ((countPayload_before_last ?_).trans ?_))
  · exact (payCnt_succ q b).trans_ne ((payCnt_ne hq hp).trans_eq hsize.symm)
  · simp only [payCnt_succ q b, counted]

/-- The last byte completes. -/
theorem TakesByte.last {q : List Byte} {b : Byte} (hb : TakesByte rdy u m h q b) (hq : p = q ++ [b]) :
    exec (.rxByte b rdy) (counted u (m q) (h q) q) = .next (complete (counted u (m p) (h p) p)) := by
  subst hq
  refine hb.trans (congrArg _ ((countPayload_last ?_).trans ?_))
  · exact (payCnt_succ q b).trans hsize.symm
  · simp only [payCnt_succ q b, counted]

/-- The payload's bytes one by one. -/
theorem process_payload (hp : p.length ≤ 65535) (hne : p ≠ [])
    (hbytes : ∀ q b, (q ++ [b]).length ≤ p.length → TakesByte rdy u m h q b) :
    process rdy p (counted u (m []) (h []) []) = .next (complete (counted u (m p) (h p) p)) := by
  have hprefix (q : List Byte) (hq : q.length < p.length) :
      process rdy q (counted u (m []) (h []) []) = .next (counted u (m q) (h q) q) := by
    induction q using List.reverseRecOn with
    | nil => rfl
    | append_singleton q b ih =>
      have hq' : q.length < p.length := by
        rw [List.length_append, List.length_singleton] at hq
        omega
      rw [process_append_next (ih hq'), process_cons_next ((hbytes q b hq.le).before_last hsize hq hp), process_nil]
  obtain ⟨q, b, hq⟩ : ∃ q b, p = q ++ [b] := ⟨_, _, (List.dropLast_append_getLast hne).symm⟩
  have hlen : (q ++ [b]).length = p.length := congrArg List.length hq.symm
  have hlt : q.length < p.length := by
    rw [← hlen, List.length_append, List.length_singleton]
    omega
  have hlast := process_cons_next ((hbytes q b hlen.le).last hsize hq) []
  calc process rdy p (counted u (m []) (h []) [])
      = process rdy (q ++ [b]) (counted u (m []) (h []) []) := by rw [hq]
    _ = process rdy [b] (counted u (m q) (h q) q) := process_append_next (hprefix q hlt) [b]
    _ = .next (complete (counted u (m p) (h p) p)) := hlast

/-- A whole message, its payload empty or not. -/
theorem process_message {s : State} (hs : FreshIntronSearch s) {g : List Byte} (hg : NoEarlyMatch g s.intron)
    {k v : Byte} {c : BitVec 32} (hp : p.length ≤ 65535)
    (hu : headerComplete rdy (headerRead k v (BitVec.ofNat 16 p.length) c s) = .ok (completeIfEmpty u))
    (hd : u.dstate = .rp ∨ u.dstate = .dp) (h0 : counted u (m []) (h []) [] = u)
    (hbytes : ∀ q b, (q ++ [b]).length ≤ p.length → TakesByte rdy u m h q b) :
    process rdy (g ++ (frameHead s.intron k v (BitVec.ofNat 16 p.length) ++ be32 c) ++ p) s =
      .next (complete (counted u (m p) (h p) p)) := by
  rw [process_append_next (process_head hs hg hu)]
  by_cases hne : p = []
  · subst hne
    rw [completeIfEmpty_empty hd hsize, h0]
    rfl
  · have hn : u.hdrSize ≠ 0 := by
      rw [hsize]
      exact (payCnt_ne (List.length_pos_iff.mpr hne) hp).symm
    rw [completeIfEmpty_payload hn]
    exact (congrArg (process rdy p) h0).symm.trans (process_payload hsize hp hne hbytes)

end Payload

/-- SCRATCH with the bytes `q` written from index 0 on. -/
def stored (m : Memory) (q : List Byte) : Memory := q.zipIdx.foldl (fun m b => m.write b.2 b.1) m

theorem stored_concat (m : Memory) (q : List Byte) (b : Byte) : stored m (q ++ [b]) = (stored m q).write q.length b := by
  simp [stored, List.zipIdx_append]

theorem stored_wf {m : Memory} (hm : m.wf = true) {q : List Byte} (hq : q.length ≤ 64) : (stored m q).wf = true := by
  induction q using List.reverseRecOn with
  | nil => exact hm
  | append_singleton q b ih =>
    rw [List.length_append, List.length_singleton] at hq
    rw [stored_concat]
    exact Memory.write_wf (ih (by omega)) hq b

theorem memRead_stored {m : Memory} (hm : m.wf = true) {q : List Byte} (hq : q.length ≤ 64) :
    memRead (stored m q) 0 q.length = q := by
  induction q using List.reverseRecOn with
  | nil => rfl
  | append_singleton q b ih =>
    rw [List.length_append, List.length_singleton] at hq
    rw [stored_concat, List.length_append, List.length_singleton, memRead_write_succ (stored_wf hm (by omega)),
      ih (by omega)]

theorem takesByte_scratch {rdy : Bool} {u : State} (hd : u.dstate = .rp) (hs : u.streamed = false) {q : List Byte} {b : Byte}
    (hq : (q ++ [b]).length ≤ 64) : TakesByte rdy u (stored u.scratch) (fun _ => u.history) q b := by
  rw [List.length_append, List.length_singleton] at hq
  have hcnt : (counted u (stored u.scratch q) u.history q).payCnt.toNat = q.length := Nat.mod_eq_of_lt (by omega)
  rw [TakesByte, exec_rxByte_scratch b rdy (by exact hd) (by exact hs), scratchByte_stored b (by rw [hcnt]; omega),
    hcnt, finish_ok, stored_concat]
  simp [counted, foldByte]

theorem takesByte_stream {rdy : Bool} {u : State} (hd : u.dstate = .rp) (hs : u.streamed = true) (q : List Byte) (b : Byte) :
    TakesByte rdy u (fun _ => u.scratch) (fun q => u.history ++ q.map Event.tunUpdate) q b := by
  rw [TakesByte, exec_rxByte_streamed b rdy (by exact hd) (by exact hs), streamByte]
  simp [counted, foldByte, State.emit]

theorem takesByte_discard {rdy : Bool} {u : State} (hd : u.dstate = .dp) (q : List Byte) (b : Byte) :
    TakesByte rdy u (fun _ => u.scratch) (fun _ => u.history) q b := by
  rw [TakesByte, exec_rxByte_discarding (by exact hd), discardByte]
  simp [counted, foldByte]

/-! ### Whole messages by where their payload goes -/

section Message

variable {rdy : Bool} {u s : State} {p : List Byte} (hsize : u.hdrSize = BitVec.ofNat 16 p.length)
  (hcnt : u.payCnt = 0) (hs : FreshIntronSearch s) {g : List Byte} (hg : NoEarlyMatch g s.intron) {k v : Byte}
  {c : BitVec 32} (hp : p.length ≤ 65535)
  (hu : headerComplete rdy (headerRead k v (BitVec.ofNat 16 p.length) c s) = .ok (completeIfEmpty u))
include hsize hcnt hs hg hp hu

theorem process_message_scratch (hd : u.dstate = .rp) (hstr : u.streamed = false) (h64 : p.length ≤ 64) :
    process rdy (g ++ (frameHead s.intron k v (BitVec.ofNat 16 p.length) ++ be32 c) ++ p) s =
      .next (complete (counted u (stored u.scratch p) u.history p)) :=
  process_message (m := stored u.scratch) (h := fun _ => u.history) hsize hs hg hp hu (.inl hd) (counted_nil hcnt)
    fun _ _ hq => takesByte_scratch hd hstr (hq.trans h64)

theorem process_message_stream (hd : u.dstate = .rp) (hstr : u.streamed = true) :
    process rdy (g ++ (frameHead s.intron k v (BitVec.ofNat 16 p.length) ++ be32 c) ++ p) s =
      .next (complete (counted u u.scratch (u.history ++ p.map Event.tunUpdate) p)) := by
  have h0 : counted u u.scratch (u.history ++ ([] : List Byte).map Event.tunUpdate) [] = u := by
    rw [List.map_nil, List.append_nil, counted_nil hcnt]
  exact process_message (m := fun _ => u.scratch) (h := fun q => u.history ++ q.map Event.tunUpdate) hsize hs hg hp hu
    (.inl hd) h0 fun q b _ => takesByte_stream hd hstr q b

theorem process_message_discard (hd : u.dstate = .dp) :
    process rdy (g ++ (frameHead s.intron k v (BitVec.ofNat 16 p.length) ++ be32 c) ++ p) s =
      .next (complete (counted u u.scratch u.history p)) :=
  process_message (m := fun _ => u.scratch) (h := fun _ => u.history) hsize hs hg hp hu (.inr hd) (counted_nil hcnt)
    fun q b _ => takesByte_discard hd q b

end Message

end Sys2Proof.Machine

/-! PROOFS. Whole messages by kind: dispatched (42_framer.md R205), the Intron switched (43_deframer.md R233), streamed
(44_tunnel.md R277) or discarded (R271), and one message after another (42_framer.md R238). -/

namespace Sys2Proof.Machine

theorem freshIntronSearch_softResetColumn (s : State) : FreshIntronSearch (softResetColumn s) := ⟨rfl, rfl, rfl⟩

/-- The checksum received is the message's. -/
theorem crcValid_counted {u : State} {k v : Byte} {n : BitVec 16} {i : Intron} (m : Memory) (h : List Event) (p : List Byte)
    (hacc : u.crcAcc = crc32 u.cfg.crc (frameHead i k v n)) :
    crcValid (counted u m h p) = decide (msgCrc u.cfg.crc i k v n p = u.crcRx) := by
  rw [msgCrc_eq, crc32_append, ← hacc]
  rfl

/-! ### Messages in SCRATCH -/

/-- The first bytes of a read are a shorter read. -/
theorem memRead_take (m : Memory) (i : Nat) {k n : Nat} (h : k ≤ n) : (memRead m i n).take k = memRead m i k := by
  rw [memRead, ← List.map_take, List.take_range, min_eq_left h, memRead]

section Unstreamed

variable {s : State} (hcfg : s.cfg.wf = true) (hs : FreshIntronSearch s) (hcanon : ScratchCanonical s) {g : List Byte}
  (hg : NoEarlyMatch g s.intron) {k : Byte} (v : Byte) {p : List Byte} (hp : p.length ≤ 65535)
  (ha : accept s.cfg k (BitVec.ofNat 16 p.length) = true) (hk : k ≠ s.cfg.kindCode.packetV2) (c : BitVec 32)

/-- The state once a whole message is in SCRATCH. -/
def messageRead (k v : Byte) (p : List Byte) (c : BitVec 32) (s : State) : State :=
  counted (receiving (headerRead k v (BitVec.ofNat 16 p.length) c s)) (stored s.scratch p) s.history p

theorem crcValid_messageRead (k : Byte) :
    crcValid (messageRead k v p c s) = decide (msgCrc s.cfg.crc s.intron k v (BitVec.ofNat 16 p.length) p = c) :=
  crcValid_counted _ _ _ rfl

section Payload

include hcfg hp ha hk

theorem payload_length_le : p.length ≤ 64 := by
  have hsize : (BitVec.ofNat 16 p.length).toNat = p.length := Nat.mod_eq_of_lt (by omega)
  rw [← hsize]
  exact size_le_scratchSize hcfg ha (decide_eq_false hk)

include hs hg in
/-- The bytes of a message lead to its completion. -/
theorem process_unstreamed (rdy : Bool) :
    process rdy (g ++ (frameHead s.intron k v (BitVec.ofNat 16 p.length) ++ be32 c) ++ p) s =
      .next (complete (messageRead k v p c s)) := by
  have hheader := headerComplete_scratch (s := headerRead k v (BitVec.ofNat 16 p.length) c s) (rdy := rdy) ha
    (decide_eq_false hk)
  exact process_message_scratch (u := receiving (headerRead k v (BitVec.ofNat 16 p.length) c s)) rfl rfl hs hg hp hheader
    rfl rfl (payload_length_le hcfg hp ha hk)

include hcanon in
theorem memRead_messageRead :
    memRead (messageRead k v p c s).scratch 0 (messageRead k v p c s).hdrSize.toNat = p := by
  have hsize : (messageRead k v p c s).hdrSize.toNat = p.length := Nat.mod_eq_of_lt (by omega)
  rw [hsize]
  exact memRead_stored hcanon (payload_length_le hcfg hp ha hk)

end Payload

/-- What a message leaves: its events, result and Intron, and a fresh search. -/
structure Dispatched (s t : State) (es : List Event) (valid : Bool) (i : Intron) : Prop where
  history : t.history = s.history ++ es
  lastResult : t.lastResult = deliveredResult valid
  intron : t.intron = i
  fresh : FreshIntronSearch t
  canonical : ScratchCanonical t
  outside : SameOutsideDeframer s t

include hcfg hs hcanon hg hp ha hk

/-- A message that is no CLIENTCONFIG_V2 is dispatched with its validity. -/
theorem process_dispatched (hc : k ≠ s.cfg.kindCode.clientConfigV2) (rdy : Bool) :
    ∃ t, process rdy (g ++ (frameHead s.intron k v (BitVec.ofNat 16 p.length) ++ be32 c) ++ p) s = .next t ∧
      Dispatched s t
        [.dispatch k v p (decide (msgCrc s.cfg.crc s.intron k v (BitVec.ofNat 16 p.length) p = c))]
        (decide (msgCrc s.cfg.crc s.intron k v (BitVec.ofNat 16 p.length) p = c)) s.intron := by
  have hcomplete := complete_dispatched (s := messageRead k v p c s) nofun rfl hs.streamOpen fun h => hc h.1
  rw [memRead_messageRead hcfg hcanon v hp ha hk c, crcValid_messageRead] at hcomplete
  refine ⟨_, (process_unstreamed hcfg hs hg v hp ha hk c rdy).trans (congrArg _ hcomplete), rfl, rfl, rfl,
    freshIntronSearch_softResetColumn _, ?_, by constructor <;> rfl⟩
  exact stored_wf hcanon (payload_length_le hcfg hp ha hk)

/-- A valid CLIENTCONFIG_V2 is dispatched and switches the Intron. -/
theorem process_config (hc : k = s.cfg.kindCode.clientConfigV2) (rdy : Bool)
    (hvalid : msgCrc s.cfg.crc s.intron k v (BitVec.ofNat 16 p.length) p = c) :
    ∃ t, process rdy (g ++ (frameHead s.intron k v (BitVec.ofNat 16 p.length) ++ be32 c) ++ p) s = .next t ∧
      Dispatched s t [.dispatch k v p true, .intronSet (intronOf p) .rx] true (intronOf p) := by
  have hread := memRead_messageRead hcfg hcanon v hp ha hk c
  have hintron : intronOf (memRead (messageRead k v p c s).scratch 0 8) = intronOf p := by
    have hsize : 8 ≤ (messageRead k v p c s).hdrSize.toNat := by
      rw [hc] at ha
      have hlen := (accept_code hcfg .clientConfigV2 _).mp ha
      exact le_trans (by decide) hlen.1
    rw [← memRead_take _ _ hsize, hread, intronOf_take]
  have hcomplete := complete_config (s := messageRead k v p c s) nofun rfl hs.streamOpen hc
    ((crcValid_messageRead v c k).trans (decide_eq_true hvalid))
  rw [hread, hintron] at hcomplete
  refine ⟨_, (process_unstreamed hcfg hs hg v hp ha hk c rdy).trans (congrArg _ hcomplete), rfl, rfl, rfl,
    freshIntronSearch_softResetColumn _, ?_, by constructor <;> rfl⟩
  exact stored_wf hcanon (payload_length_le hcfg hp ha hk)

end Unstreamed

/-- Settles O32: a message without garbage before it. -/
theorem messageDispatchedWithItsValidity : Obligations.MessageDispatchedWithItsValidity := by
  intro s rdy k v p c hcfg hs hcanon hp ha hk hc valid
  obtain ⟨t, ht, hhistory, hresult, hintron, hfresh, hcanonical, houtside⟩ :=
    process_dispatched (g := []) hcfg hs hcanon nofun v hp ha hk c hc rdy
  exact ⟨t, ht, hhistory, hresult, hintron, hfresh, hcanonical, houtside⟩

/-- A frame is a message whose checksum is its own. -/
theorem garbage_frame_eq (c : CrcAlgorithm) (i : Intron) (g : List Byte) (k v : Byte) (p : List Byte) :
    g ++ frame c i k v p =
      g ++ (frameHead i k v (BitVec.ofNat 16 p.length) ++ be32 (msgCrc c i k v (BitVec.ofNat 16 p.length) p)) ++ p := by
  rw [frame_eq, msgCrc_eq, List.append_assoc, List.append_assoc]

/-- Settles O33: the frame's checksum is valid; a CLIENTCONFIG_V2 switches the Intron. -/
theorem roundTripDispatch : Obligations.RoundTripDispatch := by
  intro s rdy g k v p hcfg hs hcanon hg hp ha hk
  rw [garbage_frame_eq]
  by_cases hc : k = s.cfg.kindCode.clientConfigV2
  · obtain ⟨t, ht, hhistory, hresult, hintron, hfresh, hcanonical, houtside⟩ :=
      process_config hcfg hs hcanon hg v hp ha hk _ hc rdy rfl
    exact ⟨t, ht, fun hne => absurd hc hne, fun _ => ⟨hhistory, hintron⟩, hresult, hfresh, hcanonical, houtside⟩
  · obtain ⟨t, ht, hhistory, hresult, hintron, hfresh, hcanonical, houtside⟩ :=
      process_dispatched hcfg hs hcanon hg v hp ha hk _ hc rdy
    rw [decide_eq_true rfl] at hhistory hresult
    exact ⟨t, ht, fun _ => ⟨hhistory, hintron⟩, fun heq => absurd heq hc, hresult, hfresh, hcanonical, houtside⟩

/-- Settles O36: the first message leaves a fresh search for the same Intron. -/
theorem resynchronisesAfterGarbage : Obligations.ResynchronisesAfterGarbage := by
  intro s rdy g g' k v k' v' p p' hcfg hs hcanon hg hg' hp hp' ha ha' hk hk' hc hc'
  obtain ⟨t, ht, hfirst, -, -, hfresh, hcanonical, houtside⟩ := roundTripDispatch s rdy g k v p hcfg hs hcanon hg hp ha hk
  obtain ⟨hhistory, hintron⟩ := hfirst hc
  rw [← houtside.cfg] at hcfg ha' hk' hc'
  rw [← hintron] at hg'
  obtain ⟨u, hu, hsecond, -⟩ := roundTripDispatch t rdy g' k' v' p' hcfg hfresh hcanonical hg' hp' ha' hk'
  refine ⟨u, ?_, ?_⟩
  · rw [List.append_assoc, process_append_next ht, ← houtside.cfg, ← hintron, hu]
  · rw [(hsecond hc').1, hhistory, List.append_assoc]
    rfl

/-! ### Packets -/

section Packet

variable {s : State} (hcfg : s.cfg.wf = true) (hs : FreshIntronSearch s) {g : List Byte}
  (hg : NoEarlyMatch g s.intron) (v : Byte) {p : List Byte} (hp : p.length ≤ 65535) (c : BitVec 32)

/-- The state once the tunnel has answered a packet's header. -/
def packetBegun (answer : Bool) (v : Byte) (n : BitVec 16) (c : BitVec 32) (s : State) : State :=
  begun answer (headerRead s.cfg.kindCode.packetV2 v n c s)

theorem crcValid_packet (answer : Bool) (m : Memory) (h : List Event) :
    crcValid (counted (packetBegun answer v (BitVec.ofNat 16 p.length) c s) m h p) =
      decide (msgCrc s.cfg.crc s.intron s.cfg.kindCode.packetV2 v (BitVec.ofNat 16 p.length) p = c) :=
  crcValid_counted m h p rfl

include hcfg hs

theorem headerComplete_packet (answer : Bool) (n : BitVec 16) :
    headerComplete answer (headerRead s.cfg.kindCode.packetV2 v n c s) =
      .ok (completeIfEmpty (packetBegun answer v n c s)) :=
  headerComplete_begins (s := headerRead s.cfg.kindCode.packetV2 v n c s)
    ((accept_code hcfg .packetV2 n).mpr trivial) (decide_eq_true rfl) hs.streamOpen

include hg hp

/-- The bytes of an accepted packet are passed on one by one. -/
theorem process_accepted_packet :
    process true
        (g ++ (frameHead s.intron s.cfg.kindCode.packetV2 v (BitVec.ofNat 16 p.length) ++ be32 c) ++ p) s =
      .next (complete
        (counted (packetBegun true v (BitVec.ofNat 16 p.length) c s) s.scratch
          ((packetBegun true v (BitVec.ofNat 16 p.length) c s).history ++ p.map Event.tunUpdate) p)) :=
  process_message_stream (u := packetBegun true v (BitVec.ofNat 16 p.length) c s) rfl rfl hs hg hp
    (headerComplete_packet hcfg hs v c true _) rfl rfl

/-- The bytes of a declined packet are only counted. -/
theorem process_declined_packet :
    process false
        (g ++ (frameHead s.intron s.cfg.kindCode.packetV2 v (BitVec.ofNat 16 p.length) ++ be32 c) ++ p) s =
      .next (complete
        (counted (packetBegun false v (BitVec.ofNat 16 p.length) c s) s.scratch
          (packetBegun false v (BitVec.ofNat 16 p.length) c s).history p)) :=
  process_message_discard (u := packetBegun false v (BitVec.ofNat 16 p.length) c s) rfl rfl hs hg hp
    (headerComplete_packet hcfg hs v c false _) rfl

end Packet

/-- Settles O34: the last byte commits. -/
theorem roundTripStream : Obligations.RoundTripStream := by
  intro s g v p hcfg hs hg hp
  have hprocess := process_accepted_packet hcfg hs hg v hp
    (msgCrc s.cfg.crc s.intron s.cfg.kindCode.packetV2 v (BitVec.ofNat 16 p.length) p)
  rw [complete_streamed (fun h => DState.noConfusion h) rfl, crcValid_packet, decide_eq_true rfl] at hprocess
  rw [garbage_frame_eq]
  exact ⟨_, hprocess, rfl, rfl, rfl, rfl, freshIntronSearch_softResetColumn _, by constructor <;> rfl⟩

/-- Settles O35: the last byte leaves the valid checksum's result. -/
theorem declinedStreamIsDiscarded : Obligations.DeclinedStreamIsDiscarded := by
  intro s g v p hcfg hs hg hp
  have hprocess := process_declined_packet hcfg hs hg v hp
    (msgCrc s.cfg.crc s.intron s.cfg.kindCode.packetV2 v (BitVec.ofNat 16 p.length) p)
  rw [complete_discarding rfl rfl, crcValid_packet, decide_eq_true rfl] at hprocess
  rw [garbage_frame_eq]
  exact ⟨_, hprocess, rfl, rfl, rfl, rfl, freshIntronSearch_softResetColumn _, by constructor <;> rfl⟩

end Sys2Proof.Machine

/-! PROOFS. The fields of a CLIENTCONFIG_V2 payload (40_vocabulary.md R155): what `ccFields` reads from an Intron, an SSIDLen
and the bytes after them. -/

namespace Sys2Proof.Machine

/-- The fields, with `sl` the SSIDLen and `body` the bytes that follow it. -/
theorem ccFields_eq (cap : Nat) (i : Intron) (sl : Byte) (body : List Byte) :
    ccFields cap (intronBytes i ++ [sl] ++ body) =
      (i, body.take (min (min sl.toNat body.length) 32),
        if sl.toNat < body.length then
          (body.drop (sl.toNat + 1)).take
            (min (min (body.getD sl.toNat 0).toNat (body.length - sl.toNat - 1)) cap)
        else []) := by
  have hlen : (intronBytes i ++ [sl] ++ body).length = 9 + body.length := by
    simp only [List.length_append, intronBytes_length, List.length_singleton]
  have hsl : (intronBytes i ++ [sl] ++ body).getD 8 0 = sl := rfl
  have hssid : (intronBytes i ++ [sl] ++ body).drop 9 = body := rfl
  have hpass : (intronBytes i ++ [sl] ++ body).drop (9 + sl.toNat + 1) = body.drop (sl.toNat + 1) := by
    rw [Nat.add_assoc, ← List.drop_drop, hssid]
  have hpassLen : (intronBytes i ++ [sl] ++ body).getD (9 + sl.toNat) 0 = body.getD sl.toNat 0 := by
    rw [List.getD_append_right _ _ _ _ (by simp)]
    simp
  have hrest : 9 + body.length - (9 + sl.toNat) - 1 = body.length - sl.toNat - 1 := by omega
  have hintron : intronOf (intronBytes i ++ [sl] ++ body) = i := rfl
  simp only [ccFields, hlen, hsl, hssid, hpass, hpassLen, hrest, hintron, Config.ssidCap, Nat.add_sub_cancel_left,
    Nat.add_lt_add_iff_left]

/-- An SSID with its own length, a PassLen and what follows. -/
theorem ccFields_ssid (cap : Nat) (i : Intron) {ssid rest : List Byte} (passLen : Byte)
    (h : 10 + ssid.length + rest.length ≤ 64) :
    ccFields cap (intronBytes i ++ [BitVec.ofNat 8 ssid.length] ++ ssid ++ [passLen] ++ rest) =
      (i, ssid.take 32, rest.take (min passLen.toNat cap)) := by
  have hsl : (BitVec.ofNat 8 ssid.length).toNat = ssid.length := Nat.mod_eq_of_lt (by omega)
  have hlen : (ssid ++ [passLen] ++ rest).length = ssid.length + (rest.length + 1) := by simp
  have hpassLen : (ssid ++ [passLen] ++ rest).getD ssid.length 0 = passLen := by simp
  have hpass : (ssid ++ [passLen] ++ rest).drop (ssid.length + 1) = rest := List.drop_left' (by simp)
  have hssid : (ssid ++ [passLen] ++ rest).take (min (min ssid.length (ssid.length + (rest.length + 1))) 32) =
      ssid.take 32 := by
    rw [List.append_assoc, List.take_append_of_le_length (by omega), List.take_eq_take_iff]
    omega
  have hbody : intronBytes i ++ [BitVec.ofNat 8 ssid.length] ++ ssid ++ [passLen] ++ rest =
      intronBytes i ++ [BitVec.ofNat 8 ssid.length] ++ (ssid ++ [passLen] ++ rest) := by simp
  rw [hbody, ccFields_eq, hsl, hlen, hpassLen, hpass, hssid, if_pos (by omega)]
  refine congrArg (fun pass => (i, ssid.take 32, pass)) (List.take_eq_take_iff.mpr ?_)
  omega

/-- An SSIDLen that reaches the end of the payload leaves no password. -/
theorem ccFields_ssid_to_end (cap : Nat) (i : Intron) {ssidLen : Byte} {rest : List Byte}
    (h : rest.length ≤ ssidLen.toNat) :
    ccFields cap (intronBytes i ++ [ssidLen] ++ rest) = (i, rest.take 32, []) := by
  have hssid : rest.take (min (min ssidLen.toNat rest.length) 32) = rest.take 32 := by
    rw [List.take_eq_take_iff]
    omega
  rw [ccFields_eq, if_neg (Nat.not_lt.mpr h), hssid]

theorem ccFields_ssid_length_le (cap : Nat) (p : List Byte) : (ccFields cap p).2.1.length ≤ 32 := by
  simp only [ccFields, Config.ssidCap, List.length_take]
  omega

section Password

variable {p : List Byte} (hp : p.length ≤ 64)
include hp

theorem ccFields_password_length_le (cap : Nat) : (ccFields cap p).2.2.length ≤ 54 := by
  simp only [ccFields]
  split
  · rw [List.length_take]
    omega
  · exact Nat.zero_le 54

/-- The bytes present bound the password below the default PASS_CAP. -/
theorem ccFields_cap {cap : Nat} (hcap : 54 ≤ cap) : ccFields cap p = ccFields 54 p := by
  have hmin (passLen sl : Nat) : min (min passLen (p.length - (9 + sl) - 1)) cap =
      min (min passLen (p.length - (9 + sl) - 1)) 54 := by omega
  simp only [ccFields, hmin]

end Password

/-- Settles O37: the payload's parts at their places; the caps cut nothing that fits. -/
theorem configFieldsExtracted : Obligations.ConfigFieldsExtracted := by
  refine ⟨fun cap i ssid pass hssid hlen hcap => ?whole, fun cap i ssid rest passLen h => ccFields_ssid cap i passLen h,
    fun cap i ssidLen rest _ _ h => ccFields_ssid_to_end cap i h,
    fun cap p _ hp => ⟨ccFields_ssid_length_le cap p, ccFields_password_length_le hp cap, ccFields_cap hp⟩⟩
  case whole =>
    have hpassLen : (BitVec.ofNat 8 pass.length).toNat = pass.length := Nat.mod_eq_of_lt (by omega)
    rw [ccFields_ssid cap i _ hlen, hpassLen, List.take_of_length_le hssid, List.take_of_length_le (by omega)]

end Sys2Proof.Machine
